-- ==== Sys2Proof/Word.lean ====
section
/-! DEFINITION. The byte, the unit of every store and port of the block (00_scope.md R9). -/

namespace Sys2Proof

/-- A byte: an unsigned integer 0..255, bit 7 the most significant (00_scope.md R9). -/
abbrev Byte := BitVec 8

end Sys2Proof
end

