-- ==== Sys2Proof/Config.lean ====
section
/-! DEFINITION. The open parameters of 00_scope.md R7 and the one free value of the model, the scheduler's choice. -/

namespace Sys2Proof

/-- The agents that take steps (00_scope.md R12). -/
inductive Agent where
  /-- SRC, the byte source: FEED. -/
  | src
  /-- SYNC, the frame synchronizer: CLEAR, TRIM, DROP1, RET_NEED_MORE, EXTRACT. -/
  | sync
  /-- DEC, checksum validator and dispatcher: DECODE. -/
  | dec
  /-- SINK, the output sink: TAKE. -/
  | sink
  /-- The host: RESET. -/
  | host
deriving DecidableEq, Repr, Inhabited

/-- The configuration record of 00_scope.md R7. `BUF_CAP` below 64 and a fixed trim above 60 cannot be written
(93_implementation_defined.md U13; log 23). -/
structure Config where
  /-- `BUF_CAP`: `none` is `unbounded`. -/
  bufCap : Option { n : Nat // 64 ≤ n }
  /-- `FM_FIXED_TRIM`, 0..60. -/
  fmFixedTrim : Fin 61
  /-- `FM_NUL_CUT`. -/
  fmNulCut : Bool
  /-- `FM_CTRL_STRIP`. -/
  fmCtrlStrip : Bool
deriving DecidableEq, Repr

/-- The defaults of 00_scope.md R7: unbounded, 0, false, true. -/
def Config.default : Config := { bufCap := none, fmFixedTrim := 0, fmNulCut := false, fmCtrlStrip := true }

/-- FREE VALUE (log 1): which agent moves when the schedule in State is empty. The spec fixes no order between
enabled steps of different agents (00_scope.md R12, R37), so nothing is known of it. -/
opaque Config.freeAgent : Nat → Agent

end Sys2Proof
end

