-- ==== Sys2Proof/Machine/Operands.lean ====
section
/-! DEFINITION. Operand forms: the constants of 00_scope.md R6, byte sequences (R10), the multi-byte integers of
20_memory.md R46 and 30_encoding.md R69, and the Flight Mode text of 43_payload_decode.md R128. -/

namespace Sys2Proof.Machine

/-- `SYNC` (00_scope.md R6): the first byte of every frame. -/
abbrev syncByte : Byte := 0xC8#8

/-- The byte at offset `o`. Every caller has checked `o < |s|` (20_memory.md R45); outside that bound the value is
not used. -/
def byteAt (s : List Byte) (o : Nat) : Byte := s.getD o 0#8

/-- `s[a:b]`, the half-open slice of 00_scope.md R10. -/
def slice (s : List Byte) (a b : Nat) : List Byte := (s.drop a).take (b - a)

/-- `find_sync(s)` (R10): the least offset of a sync byte. -/
def findSync : List Byte → Option Nat
  | [] => none
  | b :: bs => if b = syncByte then some 0 else (findSync bs).map (· + 1)

/-- A length byte outside `0x02..0x3E` (30_encoding.md R62, R68): the total `l + 2` is below 4 or above 64. -/
def badLength (l : Byte) : Bool := l.toNat < 2 || 62 < l.toNat

/-- `frame_total_length = length + 2`, with no wrap (R62). -/
def totalLength (l : Byte) : Nat := l.toNat + 2

/-- `u16be(s, o)` (R10): the earlier byte is the more significant (20_memory.md R46). -/
def u16be (s : List Byte) (o : Nat) : BitVec 16 :=
  BitVec.ofNat 16 ((byteAt s o).toNat * 2 ^ 8 + (byteAt s (o + 1)).toNat)

/-- `u32be(s, o)` (R10). -/
def u32be (s : List Byte) (o : Nat) : BitVec 32 :=
  BitVec.ofNat 32
    ((byteAt s o).toNat * 2 ^ 24 + (byteAt s (o + 1)).toNat * 2 ^ 16 + (byteAt s (o + 2)).toNat * 2 ^ 8 +
      (byteAt s (o + 3)).toNat)

/-- The two bytes of a `u16`, most significant first. -/
def be16 (x : BitVec 16) : List Byte := [BitVec.ofNat 8 (x.toNat / 2 ^ 8), BitVec.ofNat 8 x.toNat]

/-- The four bytes of a 32-bit pattern, most significant first. -/
def be32 (x : BitVec 32) : List Byte :=
  [BitVec.ofNat 8 (x.toNat / 2 ^ 24), BitVec.ofNat 8 (x.toNat / 2 ^ 16), BitVec.ofNat 8 (x.toNat / 2 ^ 8),
    BitVec.ofNat 8 x.toNat]

/-- `sext_N(v)` (R9): two's complement (30_encoding.md R69; log 22). -/
def sext {w : Nat} (v : BitVec w) : Int :=
  if v.toNat < 2 ^ (w - 1) then (v.toNat : Int) else (v.toNat : Int) - 2 ^ w

/-- The least payload size of each type code (30_encoding.md R66, 42_dispatch.md R113); 0 where none applies. -/
def minPayload (t : Byte) : Nat :=
  if t = 0x02#8 then 15 else if t = 0x08#8 then 2 else if t = 0x14#8 then 4 else if t = 0x1E#8 then 6 else 0

/-- The five recognised type codes (30_encoding.md R66). -/
def recognisedType (t : Byte) : Bool :=
  t = 0x02#8 || t = 0x08#8 || t = 0x14#8 || t = 0x1E#8 || t = 0x21#8

/-- A control byte: below `0x20`, or `0x7F` (43_payload_decode.md R128, 92_eei_decisions.md D19). -/
def isControl (c : Byte) : Bool := c.toNat < 0x20 || c = 0x7F#8

/-- Strip trailing control bytes: keep the least number of bytes after which only control bytes follow (R128). -/
def stripControl : List Byte → List Byte
  | [] => []
  | b :: bs => if (b :: bs).all isControl then [] else b :: stripControl bs

/-- End the text before its first `0x00` byte (R128). -/
def cutAtNul : List Byte → List Byte
  | [] => []
  | b :: bs => if b = 0x00#8 then [] else b :: cutAtNul bs

/-- Drop the last `n` bytes, saturating at the empty text (R128). -/
def dropTrailing (n : Nat) (p : List Byte) : List Byte := p.take (p.length - min n p.length)

/-- The text of a Flight Mode payload: the three trims of 43_payload_decode.md R128 in their order. -/
def flightModeText (cfg : Config) (p : List Byte) : List Byte :=
  let q1 := dropTrailing cfg.fmFixedTrim.val p
  let q2 := if cfg.fmNulCut then cutAtNul q1 else q1
  if cfg.fmCtrlStrip then stripControl q2 else q2

end Sys2Proof.Machine
end

