-- ==== Sys2Proof/Machine/Checksum.lean ====
section
/-! DEFINITION. The unit CRC (41_checksum.md) and the frame format it works on (30_encoding.md R60, R79). -/

namespace Sys2Proof.Machine

/-- `CRC_POLY` (00_scope.md R6). -/
abbrev crcPoly : Byte := 0xD5#8

/-- `CRC_INIT` (00_scope.md R6). -/
abbrev crcInit : Byte := 0x00#8

/-- One of the eight shift steps of 41_checksum.md R101: the high bit is tested before the shift. -/
def crcShift (a : Byte) : Byte := if a.getLsbD 7 then (a <<< 1) ^^^ crcPoly else a <<< 1

/-- `crc8_byte(acc, b)` (R101): exclusive-or, then eight shift steps. -/
def crc8Byte (acc b : Byte) : Byte := Nat.repeat crcShift 8 (acc ^^^ b)

/-- `crc8(s)` (R102): the left fold of `crc8_byte` from `CRC_INIT`. -/
def crc8 (s : List Byte) : Byte := s.foldl crc8Byte crcInit

/-- The bytes the checksum covers, `f[2 : n-1]` (30_encoding.md R64, 41_checksum.md R103). -/
def crcCovered (f : List Byte) : List Byte := slice f 2 (f.length - 1)

/-- `crc_ok(f)` (R104): the checksum equals the last byte. -/
def crcOk (f : List Byte) : Bool := crc8 (crcCovered f) = byteAt f (f.length - 1)

/-- The payload of a frame, `f[3 : n-1]` (42_dispatch.md R111). -/
def framePayload (f : List Byte) : List Byte := slice f 3 (f.length - 1)

/-- The type byte of a frame, `f[2]` (R111). -/
def frameType (f : List Byte) : Byte := byteAt f 2

/-- `frame(t, p)` (30_encoding.md R79). -/
def mkFrame (t : Byte) (p : List Byte) : List Byte :=
  [syncByte, BitVec.ofNat 8 (p.length + 2), t] ++ p ++ [crc8 (t :: p)]

/-- The length invariants of a candidate frame (10_state.md R24, R33 I2): 4 to 64 bytes, the sync byte first, and
`f[1] + 2 = |f|`. -/
def frameOk (f : List Byte) : Bool :=
  4 ≤ f.length && f.length ≤ 64 && byteAt f 0 = syncByte && totalLength (byteAt f 1) = f.length

end Sys2Proof.Machine
end

