-- ==== Sys2Proof/Syntax.lean ====
section
/-! DEFINITION. The instructions: one constructor per row of spec/opcode_table.json. "The instruction set of this
hardware is the wire format it accepts" (00_scope.md R2), so a frame is an instruction whose operands are the frame's
fields (log 9), and the steps of the agents are the instructions beside them. -/

namespace Sys2Proof

/-- The sequencer phase PH (10_state.md R23). -/
inductive Phase where
  /-- No call of `next_frame` is in progress. -/
  | entry
  /-- A call is in progress and has already discarded something. -/
  | scan
deriving DecidableEq, Repr

/-- The rows of spec/opcode_table.json. -/
inductive Instr where
  /-- GPS, type `0x02` (30_encoding.md R70): the six fields and the payload bytes from offset 15 on. -/
  | gps (lat lon : BitVec 32) (groundspeed heading altitude : BitVec 16) (satellites : Byte) (surplus : List Byte)
  /-- BATTERY, type `0x08` (R71): the voltage and the ignored remainder. -/
  | battery (voltage : BitVec 16) (remainder : List Byte)
  /-- LINK_STATISTICS, type `0x14` (R72): the four fields and the payload bytes from offset 4 on. -/
  | linkStatistics (rssi1 rssi2 linkQuality snr : Byte) (surplus : List Byte)
  /-- ATTITUDE, type `0x1E` (R73): the three fields and the payload bytes from offset 6 on. -/
  | attitude (pitch roll yaw : BitVec 16) (surplus : List Byte)
  /-- FLIGHT_MODE, type `0x21` (R74): the whole payload. -/
  | flightMode (payload : List Byte)
  /-- UNKNOWN, any other type (R75). -/
  | unknown (typ : Byte) (payload : List Byte)
  /-- CHECKSUM_MISMATCH (42_dispatch.md R112): the raw frame. -/
  | checksumMismatch (frame : List Byte)
  /-- MALFORMED_PAYLOAD (R115): the type and the payload that is too short for it. -/
  | malformedPayload (typ : Byte) (payload : List Byte)
  /-- CLEAR (40_frame_assembler.md R85). -/
  | clear
  /-- TRIM `k` (R86): `k` is the offset of the first sync byte. -/
  | trim (k : Nat)
  /-- DROP1 (R88): `l` is the implausible length byte. -/
  | drop1 (l : Byte)
  /-- EXTRACT (R90): `l` is the length byte; the frame has `l + 2` bytes. -/
  | extract (l : Byte)
  /-- RET_NEED_MORE (R87). -/
  | retNeedMore
  /-- FEED `b` (R80). -/
  | feed (b : Byte)
  /-- DECODE (42_dispatch.md R110). -/
  | decode
  /-- TAKE (44_event_output.md R142). -/
  | take
  /-- RESET (70_reset_and_hazards.md R170). -/
  | reset
deriving DecidableEq, Repr

/-- The eight rows of format FRAME_HDR: outcomes of DECODE on a frame. -/
def Instr.isFrameRow : Instr → Bool
  | .gps _ _ _ _ _ _ _ => true
  | .battery _ _ => true
  | .linkStatistics _ _ _ _ _ => true
  | .attitude _ _ _ _ => true
  | .flightMode _ => true
  | .unknown _ _ => true
  | .checksumMismatch _ => true
  | .malformedPayload _ _ => true
  | .clear => false
  | .trim _ => false
  | .drop1 _ => false
  | .extract _ => false
  | .retNeedMore => false
  | .feed _ => false
  | .decode => false
  | .take => false
  | .reset => false

end Sys2Proof
end

