-- ==== Sys2Proof/WellFormed.lean ====
section
/-! DEFINITION. Which instructions an encoding can carry: the `constraint` column of spec/opcode_table.json. -/

namespace Sys2Proof

open Machine in
/-- The constraint of each row: payloads of at most 60 bytes (30_encoding.md R61), the type codes of each row, the
length ranges of R68, and for CHECKSUM_MISMATCH a well-framed candidate whose checksum fails. -/
def Instr.wf : Instr → Bool
  | .gps _ _ _ _ _ _ surplus => surplus.length ≤ 45
  | .battery _ remainder => remainder.length ≤ 58
  | .linkStatistics _ _ _ _ surplus => surplus.length ≤ 56
  | .attitude _ _ _ surplus => surplus.length ≤ 54
  | .flightMode payload => payload.length ≤ 60
  | .unknown typ payload => !recognisedType typ && payload.length ≤ 60
  | .checksumMismatch frame => frameOk frame && !crcOk frame
  | .malformedPayload typ payload => payload.length < minPayload typ
  | .clear => true
  | .trim k => 0 < k
  | .drop1 l => badLength l
  | .extract l => !badLength l
  | .retNeedMore => true
  | .feed _ => true
  | .decode => true
  | .take => true
  | .reset => true

end Sys2Proof
end

