-- ==== Sys2Proof/Decode.lean ====
section
/-! DEFINITION. The decoders and the encoder. A candidate frame decodes to the FRAME_HDR row it selects (42_dispatch.md
R111); the front of BUF with PH and frm_valid selects the SYNC step (40_frame_assembler.md R84). -/

namespace Sys2Proof

open Machine

/-- Why a byte sequence is no candidate frame (42_dispatch.md R111, 93_implementation_defined.md U9). -/
inductive Reject where
  /-- Fewer than 4 bytes. -/
  | tooShort
  /-- More than 64 bytes. -/
  | tooLong
  /-- The first byte is not `0xC8`. -/
  | noSync
  /-- The length byte plus 2 is not the number of bytes. -/
  | wrongLength
deriving DecidableEq, Repr

/-- What the frame decoder answers. -/
inductive Decoded where
  | instr (i : Instr)
  | reject (r : Reject)
deriving DecidableEq, Repr

/-- The row a checksum-valid frame of type `t` and payload `p` selects: checks 2 and 3 of 42_dispatch.md R111, with
the fields of 30_encoding.md R70 to R74. -/
def decodeBody (t : Byte) (p : List Byte) : Instr :=
  if recognisedType t = false then .unknown t p
  else if p.length < minPayload t then .malformedPayload t p
  else if t = 0x02#8 then
    .gps (u32be p 0) (u32be p 4) (u16be p 8) (u16be p 10) (u16be p 12) (byteAt p 14) (p.drop 15)
  else if t = 0x08#8 then .battery (u16be p 0) (p.drop 2)
  else if t = 0x14#8 then .linkStatistics (byteAt p 0) (byteAt p 1) (byteAt p 2) (byteAt p 3) (p.drop 4)
  else if t = 0x1E#8 then .attitude (u16be p 0) (u16be p 2) (u16be p 4) (p.drop 6)
  else .flightMode p

/-- The frame decoder: total on any bytes, rejecting by name what breaks the input condition, and otherwise answering
the row that the checks of 42_dispatch.md R111 select, checksum first. -/
def decodeFrame (f : List Byte) : Decoded :=
  if f.length < 4 then .reject .tooShort
  else if 64 < f.length then .reject .tooLong
  else if byteAt f 0 ≠ syncByte then .reject .noSync
  else if totalLength (byteAt f 1) ≠ f.length then .reject .wrongLength
  else if crcOk f = false then .instr (.checksumMismatch f)
  else .instr (decodeBody (frameType f) (framePayload f))

/-- What SYNC can do (40_frame_assembler.md R84): a step, or one of the two reasons it has none. -/
inductive SyncChoice where
  | step (i : Instr)
  /-- HOLD (R89): lifted only by a FEED. -/
  | hold
  /-- STALL (R84, R90): lifted only by a DECODE. -/
  | stall
deriving DecidableEq, Repr

/-- `sync_step(PH, BUF, frm_valid)` of 40_frame_assembler.md R84. -/
def decodeSync (ph : Phase) (buf : List Byte) (frmValid : Bool) : SyncChoice :=
  if ph = .entry ∧ buf.length < 2 then .hold
  else
    match findSync buf with
    | none => .step .clear
    | some (k + 1) => .step (.trim (k + 1))
    | some 0 =>
      if buf.length < 2 then .step .retNeedMore
      else if badLength (byteAt buf 1) then .step (.drop1 (byteAt buf 1))
      else if buf.length < totalLength (byteAt buf 1) then
        (if ph = .scan then .step .retNeedMore else .hold)
      else if frmValid then .stall
      else .step (.extract (byteAt buf 1))

/-- The payload bytes of a GPS frame (30_encoding.md R70). -/
def gpsPayload (lat lon : BitVec 32) (groundspeed heading altitude : BitVec 16) (satellites : Byte)
    (surplus : List Byte) : List Byte :=
  be32 lat ++ be32 lon ++ be16 groundspeed ++ be16 heading ++ be16 altitude ++ [satellites] ++ surplus

/-- The words of an instruction in stream order; `none` for the rows of format NONE. A frame row is its frame
(30_encoding.md R60, R79); DROP1 and EXTRACT are the two bytes of R68; CLEAR and TRIM, whose noise bytes are no
operands, are written with zeros for noise (log 10). -/
def encode : Instr → Option (List Byte)
  | .gps lat lon groundspeed heading altitude satellites surplus =>
    some (mkFrame 0x02#8 (gpsPayload lat lon groundspeed heading altitude satellites surplus))
  | .battery voltage remainder => some (mkFrame 0x08#8 (be16 voltage ++ remainder))
  | .linkStatistics rssi1 rssi2 linkQuality snr surplus =>
    some (mkFrame 0x14#8 ([rssi1, rssi2, linkQuality, snr] ++ surplus))
  | .attitude pitch roll yaw surplus => some (mkFrame 0x1E#8 (be16 pitch ++ be16 roll ++ be16 yaw ++ surplus))
  | .flightMode payload => some (mkFrame 0x21#8 payload)
  | .unknown typ payload => some (mkFrame typ payload)
  | .checksumMismatch frame => some frame
  | .malformedPayload typ payload => some (mkFrame typ payload)
  | .clear => some [0x00#8, 0x00#8]
  | .trim k => some (List.replicate k 0x00#8 ++ [syncByte])
  | .drop1 l => some [syncByte, l]
  | .extract l => some [syncByte, l]
  | .retNeedMore => none
  | .feed _ => none
  | .decode => none
  | .take => none
  | .reset => none

/-- Byte `n` of a table word, counted from bit 0 of `w`. -/
def tableByte (w n : Nat) : Byte := BitVec.ofNat 8 (w >>> (8 * n))

/-- The frame whose header word is `H = sync*2^16 + length*2^8 + type` (30_encoding.md R67): the three header bytes,
then zero bytes up to the total length the length byte declares (log 11). -/
def tableFrame (w : Nat) : List Byte :=
  [tableByte w 2, tableByte w 1, tableByte w 0] ++ List.replicate ((tableByte w 1).toNat - 1) 0x00#8

/-- The buffer whose first two bytes are the 16-bit SYNC header `s*2^8 + l`, then zero bytes up to 64, the longest
frame (log 11). -/
def tableBuffer (w : Nat) : List Byte := [tableByte w 1, tableByte w 0] ++ List.replicate 62 0x00#8

/-- The instruction the decoder reads from a table word: a 24-bit word is a frame header, a 16-bit word the first two
bytes of BUF at the start of a call with FRM free. -/
def decodeTableWord (nbits w : Nat) : Option Instr :=
  if nbits = 24 then
    match decodeFrame (tableFrame w) with
    | .instr i => some i
    | .reject _ => none
  else if nbits = 16 then
    match decodeSync .entry (tableBuffer w) false with
    | .step i => some i
    | .hold => none
    | .stall => none
  else none

end Sys2Proof
end

