-- ==== Sys2Proof/Machine/State.lean ====
section
/-! DEFINITION. The state of one instance of the block (10_state.md R20), the ghost state of R35 and R36, the outputs of
the last step (R28), and the environment (R37). -/

namespace Sys2Proof.Machine

/-- The decoded event, a closed variant (10_state.md R26). Numbers are the raw integers of the payload. -/
inductive Event where
  | gps (lat lon : Int) (groundspeed altitude satellites : Nat)
  | battery (voltage : Nat)
  | linkStatistics (rssi1 rssi2 linkQuality : Nat) (snr : Int)
  | attitude (pitch roll yaw : Int)
  | flightMode (text : List Byte)
  | unknownPacket (typ : Byte) (payload : List Byte)
  | checksumMismatch (frame : List Byte)
  | malformedPayload (typ : Byte)
deriving DecidableEq, Repr

/-- The event register EVT: the event and the raw frame it came from, which the event port presents
(44_event_output.md R141, 92_eei_decisions.md D13; log 8). -/
structure EvtReg where
  ev : Event
  frame : List Byte
deriving DecidableEq, Repr

/-- How a call of `next_frame` ended (40_frame_assembler.md R83, R91). -/
inductive CallResult where
  | frame
  | needMore
  | nothing
deriving DecidableEq, Repr

/-- The five SYNC steps by name, as (I4) of 10_state.md R33 speaks of them. -/
inductive SyncStep where
  | clear
  | trim
  | drop1
  | extract
  | retNeedMore
deriving DecidableEq, Repr

/-- The state. -/
structure State where
  /-- The configuration straps (00_scope.md R7), which no step writes (log 3). -/
  cfg : Config
  /-- BUF, front first (10_state.md R22). -/
  buf : List Byte
  /-- PH (R23). -/
  ph : Phase
  /-- FRM; `none` is frm_valid = 0 (R24; log 7). -/
  frm : Option (List Byte)
  /-- EVT; `none` is evt_valid = 0 (R26; log 7). -/
  evt : Option EvtReg
  /-- ACC (R25; log 6). -/
  acc : Byte
  /-- The output `cleared` of the last step (R28; log 4). -/
  cleared : Bool
  /-- The outputs `drop_valid` and `drop_count` of the last step (R28; log 4). -/
  dropCount : Option Nat
  /-- The model's own: the bytes SRC has on offer, oldest first (log 15). -/
  inp : List Byte
  /-- The model's own: the agents that move next, oldest first (log 1). -/
  sched : List Agent
  /-- The model's own: the number of free choices taken (log 1). -/
  tick : Nat
  /-- Ghost POS (R35; log 5). -/
  pos : Nat
  /-- Ghost IN_HIST (R36). -/
  inHist : List Byte
  /-- Ghost OUT_HIST (R36). -/
  outHist : List Event
  /-- Ghost FRAME_HIST (R36): where each extracted frame began, and the frame. -/
  frameHist : List (Nat × List Byte)
  /-- Ghost DROP_TOTAL (R36). -/
  dropTotal : Nat
  /-- Ghost STATUS_HIST (R36; log 20). -/
  statusHist : List CallResult
  /-- Ghost, the model's own: the last SYNC step since reset, of which (I4) of R33 speaks (log 24). -/
  lastSync : Option SyncStep
deriving DecidableEq, Repr

/-- The reasons a step could fault: none. "There is therefore no access fault of any kind in this block"
(20_memory.md R45); "no fault, no hang, no retry, no partial event" (42_dispatch.md R117). -/
inductive Fault where
deriving DecidableEq, Repr

/-- The reasons a step is refused. -/
inductive Refusal where
  /-- Raised by an arm of `exec` that has no meaning yet: no arm raises it. Safe. -/
  | notModelled (mnemonic : String)
  /-- Raised by DECODE and the FRAME_HDR rows when FRM breaks the input condition of `decode` (42_dispatch.md R111,
  93_implementation_defined.md U9: "refuse"), which no run from reset reaches (log 12). Safe. -/
  | brokenFrame
deriving DecidableEq, Repr

/-- The state right after reset (10_state.md R34), with the default configuration of 00_scope.md R7, no byte on offer
and no schedule (log 16). -/
def State.reset : State where
  cfg := Config.default
  buf := []
  ph := .entry
  frm := none
  evt := none
  acc := 0x00#8
  cleared := false
  dropCount := none
  inp := []
  sched := []
  tick := 0
  pos := 0
  inHist := []
  outHist := []
  frameHist := []
  dropTotal := 0
  statusHist := []
  lastSync := none

end Sys2Proof.Machine
end

