-- ==== Sys2Proof/Machine/Flags.lean ====
section
/-! DEFINITION. The conditions of 10_state.md R27 and the guards of the steps: functions of the state, never stored. -/

namespace Sys2Proof.Machine

/-- `sync_at_front` (R27). -/
def syncAtFront (s : State) : Bool := 1 ≤ s.buf.length && byteAt s.buf 0 = syncByte

/-- `len_ok` (R27). -/
def lenOk (s : State) : Bool := 2 ≤ s.buf.length && !badLength (byteAt s.buf 1)

/-- `have_frame` (R27). -/
def haveFrame (s : State) : Bool := lenOk s && totalLength (byteAt s.buf 1) ≤ s.buf.length

/-- `need_more` (R27, 40_frame_assembler.md R93). -/
def needMore (s : State) : Bool :=
  s.ph = .entry && (s.buf.length < 2 || (syncAtFront s && lenOk s && !haveFrame s))

/-- `|BUF| < BUF_CAP`, always true when `BUF_CAP = unbounded` (R22, R80). -/
def hasRoom (s : State) : Bool :=
  match s.cfg.bufCap with
  | none => true
  | some cap => s.buf.length < cap.val

/-- `in_ready` (R27): the guard of FEED (40_frame_assembler.md R80). -/
def inReady (s : State) : Bool := s.ph = .entry && hasRoom s

/-- `frm_valid` (R24). -/
def frmValid (s : State) : Bool := s.frm.isSome

/-- `evt_valid` (R26): the guard of TAKE (44_event_output.md R142). -/
def evtValid (s : State) : Bool := s.evt.isSome

/-- The guard of DECODE (42_dispatch.md R110). -/
def canDecode (s : State) : Bool := frmValid s && !evtValid s

/-- What CLEAR and TRIM share: a call is in progress or step 1 lets one begin (40_frame_assembler.md R85, R86). -/
def mayScan (s : State) : Bool := s.ph = .scan || 2 ≤ s.buf.length

/-- The guard of CLEAR (R85). -/
def canClear (s : State) : Bool := mayScan s && findSync s.buf = none

/-- The guard of TRIM `k` (R86). -/
def canTrim (k : Nat) (s : State) : Bool := mayScan s && findSync s.buf = some k && 0 < k

/-- The guard of RET_NEED_MORE (R87). -/
def canRetNeedMore (s : State) : Bool :=
  s.ph = .scan && syncAtFront s && (s.buf.length < 2 || (lenOk s && !haveFrame s))

/-- The guard of DROP1 with length byte `l` (R88). -/
def canDrop1 (l : Byte) (s : State) : Bool :=
  2 ≤ s.buf.length && syncAtFront s && byteAt s.buf 1 = l && badLength l

/-- The guard of EXTRACT with length byte `l` (R90). -/
def canExtract (l : Byte) (s : State) : Bool :=
  2 ≤ s.buf.length && syncAtFront s && byteAt s.buf 1 = l && !badLength l && totalLength l ≤ s.buf.length &&
    !frmValid s

/-- The SYNC step that is enabled, or why none is (R84). -/
def syncChoice (s : State) : SyncChoice := decodeSync s.ph s.buf (frmValid s)

end Sys2Proof.Machine
end

