-- ==== Sys2Proof/Machine/Ops.lean ====
section
/-! DEFINITION. The operations over the stores that every meaning is written with: the four kinds of access of
20_memory.md R40, the labels of a step, and the writing of an event. -/

namespace Sys2Proof.Machine

/-- Inspection of BUF at an offset (20_memory.md R43); `none` beyond the last byte, which no rule reads (R45). -/
def readBuf (s : State) (i : Nat) : Option Byte := s.buf[i]?

/-- The read of FRM at an offset (R44); `none` while frm_valid = 0 or beyond the frame. -/
def readFrm (s : State) (i : Nat) : Option Byte := s.frm.bind (fun f => f[i]?)

/-- No step is taken: nothing changes, and the pulses of an earlier step are over (00_scope.md R11, 10_state.md R28;
log 2). -/
def State.idle (s : State) : State := { s with cleared := false, dropCount := none }

/-- Append one byte at the back of BUF (20_memory.md R41), and to IN_HIST. -/
def State.append (s : State) (b : Byte) : State :=
  { s with buf := s.buf ++ [b], inHist := s.inHist ++ [b], cleared := false, dropCount := none }

/-- Remove `n` bytes from the front of BUF (R42); POS counts them (10_state.md R35). -/
def State.removeFront (s : State) (n : Nat) : State :=
  { s with buf := s.buf.drop n, pos := s.pos + n, cleared := false, dropCount := none }

/-- A discarding step (10_state.md R28): remove `n` bytes and put out `drop_count`. -/
def State.discard (s : State) (n : Nat) : State :=
  { s.removeFront n with dropCount := some n, dropTotal := s.dropTotal + n }

/-- End the call of `next_frame` in progress with a result (40_frame_assembler.md R91). -/
def State.endCall (s : State) (r : CallResult) : State :=
  { s with ph := .entry, statusHist := s.statusHist ++ [r] }

/-- DECODE's effect once the event is known (42_dispatch.md R110): EVT takes the event and the raw frame, FRM is freed,
and ACC is left as the computation over the frame leaves it (41_checksum.md R102, log 6). It is also all that a
diagnostic does: "A diagnostic event is written to EVT exactly like a telemetry event" (60_exceptions.md R162), and there
is nothing to return from (R163). -/
def State.deliver (s : State) (f : List Byte) (e : Event) : State :=
  { s with
    evt := some { ev := e, frame := f }
    frm := none
    acc := crc8 (crcCovered f)
    cleared := false
    dropCount := none }

/-- A FRAME_HDR row: DECODE with the outcome `e`, when the frame in FRM selects the row `i` (42_dispatch.md R111). Its
guard is DECODE's (R110) and that selection; with the guard false there is no effect (log 2). A frame that breaks the
input condition is refused (R111; log 12). -/
def retire (i : Instr) (e : Event) (s : State) : Host.Outcome State Fault Refusal :=
  match s.frm, s.evt with
  | some f, none =>
    match decodeFrame f with
    | .instr j => if j = i then .next (s.deliver f e) else .next s.idle
    | .reject _ => .refused .brokenFrame
  | some _, some _ => .next s.idle
  | none, _ => .next s.idle

/-- A step with its guard: taken when the guard holds, and without effect otherwise (00_scope.md R11; log 2). -/
def guarded (g : Bool) (t s : State) : Host.Outcome State Fault Refusal :=
  if g then .next t else .next s.idle

end Sys2Proof.Machine
end

