-- ==== Sys2Proof/Machine/Decoder.lean ====
section
/-! DEFINITION. The decode contract as the spec writes it, `decode(f)` (42_dispatch.md R111), and DECODE (R110). -/

namespace Sys2Proof.Machine

/-- `decode_gps(p)` (43_payload_decode.md R120). -/
def decodeGps (p : List Byte) : Event :=
  .gps (sext (u32be p 0)) (sext (u32be p 4)) (u16be p 8).toNat (u16be p 12).toNat (byteAt p 14).toNat

/-- `decode_battery(p)` (R122). -/
def decodeBattery (p : List Byte) : Event := .battery (u16be p 0).toNat

/-- `decode_link(p)` (R124). -/
def decodeLink (p : List Byte) : Event :=
  .linkStatistics (byteAt p 0).toNat (byteAt p 1).toNat (byteAt p 2).toNat (sext (byteAt p 3))

/-- `decode_attitude(p)` (R126). -/
def decodeAttitude (p : List Byte) : Event :=
  .attitude (sext (u16be p 0)) (sext (u16be p 2)) (sext (u16be p 4))

/-- `decode_flight_mode(p)` (R128). -/
def decodeFlightMode (cfg : Config) (p : List Byte) : Event := .flightMode (flightModeText cfg p)

/-- `decode(f)` (42_dispatch.md R111); no result where the input condition is broken (93_implementation_defined.md
U9). -/
def decodeEvent (cfg : Config) (f : List Byte) : Option Event :=
  if !frameOk f then none
  else if crc8 (slice f 2 (f.length - 1)) ≠ byteAt f (f.length - 1) then some (.checksumMismatch f)
  else
    let t := byteAt f 2
    let p := slice f 3 (f.length - 1)
    if t = 0x02#8 then some (if p.length < 15 then .malformedPayload t else decodeGps p)
    else if t = 0x08#8 then some (if p.length < 2 then .malformedPayload t else decodeBattery p)
    else if t = 0x14#8 then some (if p.length < 4 then .malformedPayload t else decodeLink p)
    else if t = 0x1E#8 then some (if p.length < 6 then .malformedPayload t else decodeAttitude p)
    else if t = 0x21#8 then some (decodeFlightMode cfg p)
    else some (.unknownPacket t p)

/-- DECODE (42_dispatch.md R110): one atomic step from FRM to EVT. It is refused on a frame that breaks the input
condition (R111; log 12), and waits while EVT is occupied or FRM is free. -/
def execDecode (s : State) : Host.Outcome State Fault Refusal :=
  match s.frm, s.evt with
  | some f, none =>
    match decodeEvent s.cfg f with
    | some e => .next (s.deliver f e)
    | none => .refused .brokenFrame
  | some _, some _ => .next s.idle
  | none, _ => .next s.idle

end Sys2Proof.Machine
end

