-- ==== Sys2Proof/Machine/Diagnostics.lean ====
section
/-! DEFINITION. The two FRAME_HDR rows that yield a diagnostic (42_dispatch.md R112, R115; 60_exceptions.md R152, R153). -/

namespace Sys2Proof.Machine

/-- CHECKSUM_MISMATCH (R112): the event carries the raw frame, all its bytes. -/
def execChecksumMismatch (frame : List Byte) (s : State) : Host.Outcome State Fault Refusal :=
  retire (.checksumMismatch frame) (.checksumMismatch frame) s

/-- MALFORMED_PAYLOAD (R115): the event carries the type only. -/
def execMalformedPayload (typ : Byte) (payload : List Byte) (s : State) : Host.Outcome State Fault Refusal :=
  retire (.malformedPayload typ payload) (.malformedPayload typ) s

end Sys2Proof.Machine
end

