-- ==== Sys2Proof/Machine/Input.lean ====
section
/-! DEFINITION. The input operation FEED (40_frame_assembler.md R80, R81). -/

namespace Sys2Proof.Machine

/-- FEED `b` (R80): one byte enters BUF between two calls of `next_frame`, when there is room. -/
def execFeed (b : Byte) (s : State) : Host.Outcome State Fault Refusal := guarded (inReady s) (s.append b) s

end Sys2Proof.Machine
end

