-- ==== Sys2Proof/Machine/Output.lean ====
section
/-! DEFINITION. The event output: TAKE (44_event_output.md R142), the event port (R141, R143, R144) and the status
outputs (10_state.md R38, 44_event_output.md R145). -/

namespace Sys2Proof.Machine

/-- TAKE (R142): the sink has the event, and EVT is free. -/
def execTake (s : State) : Host.Outcome State Fault Refusal :=
  match s.evt with
  | some r => .next { s with evt := none, outHist := s.outHist ++ [r.ev], cleared := false, dropCount := none }
  | none => .next s.idle

/-- The kind codes on `evt_kind` (44_event_output.md R143). -/
def eventKind : Event → BitVec 3
  | .unknownPacket _ _ => 0
  | .gps _ _ _ _ _ => 1
  | .battery _ => 2
  | .linkStatistics _ _ _ _ => 3
  | .attitude _ _ _ => 4
  | .flightMode _ => 5
  | .checksumMismatch _ => 6
  | .malformedPayload _ => 7

/-- The event port (44_event_output.md R141). A field that R141 does not define for the current kind is `none`: it has
no value in the model (R144; log 19). `frame` holds `evt_frame[i]` for `i < evt_len` and nothing beyond. -/
structure EventPort where
  kind : BitVec 3
  len : BitVec 7
  frame : List Byte
  typ : Byte
  plen : BitVec 6
  tlen : Option (BitVec 6)
  gpsLat : Option (BitVec 32)
  gpsLon : Option (BitVec 32)
  gpsGroundspeed : Option (BitVec 16)
  gpsAltitude : Option (BitVec 16)
  gpsSatellites : Option Byte
  batVoltage : Option (BitVec 16)
  lnkRssi1 : Option Byte
  lnkRssi2 : Option Byte
  lnkLinkQuality : Option Byte
  lnkSnr : Option Byte
  attPitch : Option (BitVec 16)
  attRoll : Option (BitVec 16)
  attYaw : Option (BitVec 16)
deriving DecidableEq, Repr

/-- The fields that R141 defines for every kind. -/
def portCommon (r : EvtReg) : EventPort where
  kind := eventKind r.ev
  len := BitVec.ofNat 7 r.frame.length
  frame := r.frame
  typ := frameType r.frame
  plen := BitVec.ofNat 6 (r.frame.length - 4)
  tlen := none
  gpsLat := none
  gpsLon := none
  gpsGroundspeed := none
  gpsAltitude := none
  gpsSatellites := none
  batVoltage := none
  lnkRssi1 := none
  lnkRssi2 := none
  lnkLinkQuality := none
  lnkSnr := none
  attPitch := none
  attRoll := none
  attYaw := none

/-- The event port for an occupied EVT (R141); a signed field carries its two's-complement pattern. -/
def portOf (r : EvtReg) : EventPort :=
  match r.ev with
  | .gps lat lon groundspeed altitude satellites =>
    { portCommon r with
      gpsLat := some (BitVec.ofInt 32 lat)
      gpsLon := some (BitVec.ofInt 32 lon)
      gpsGroundspeed := some (BitVec.ofNat 16 groundspeed)
      gpsAltitude := some (BitVec.ofNat 16 altitude)
      gpsSatellites := some (BitVec.ofNat 8 satellites) }
  | .battery voltage => { portCommon r with batVoltage := some (BitVec.ofNat 16 voltage) }
  | .linkStatistics rssi1 rssi2 linkQuality snr =>
    { portCommon r with
      lnkRssi1 := some (BitVec.ofNat 8 rssi1)
      lnkRssi2 := some (BitVec.ofNat 8 rssi2)
      lnkLinkQuality := some (BitVec.ofNat 8 linkQuality)
      lnkSnr := some (BitVec.ofInt 8 snr) }
  | .attitude pitch roll yaw =>
    { portCommon r with
      attPitch := some (BitVec.ofInt 16 pitch)
      attRoll := some (BitVec.ofInt 16 roll)
      attYaw := some (BitVec.ofInt 16 yaw) }
  | .flightMode text => { portCommon r with tlen := some (BitVec.ofNat 6 text.length) }
  | .unknownPacket _ _ => portCommon r
  | .checksumMismatch _ => portCommon r
  | .malformedPayload _ => portCommon r

/-- The event port, at a level `rst` of the reset input: no field has a value while the output evt_valid is 0 (R144),
and it is 0 while `rst` is high, even with EVT occupied (70_reset_and_hazards.md R171). What the fields then carry the
spec leaves open: that they are none is the model's choice (log 19; log 14 for `rst`). -/
def eventPort (rst : Bool) (s : State) : Option EventPort := if rst then none else s.evt.map portOf

/-- The abstract event read back from the port (44_event_output.md R141, last paragraph). -/
def portEvent (p : EventPort) : Option Event :=
  if p.kind = 0 then some (.unknownPacket p.typ (slice p.frame 3 (3 + p.plen.toNat)))
  else if p.kind = 1 then do
    let lat ← p.gpsLat
    let lon ← p.gpsLon
    let groundspeed ← p.gpsGroundspeed
    let altitude ← p.gpsAltitude
    let satellites ← p.gpsSatellites
    some (.gps (sext lat) (sext lon) groundspeed.toNat altitude.toNat satellites.toNat)
  else if p.kind = 2 then do
    let voltage ← p.batVoltage
    some (.battery voltage.toNat)
  else if p.kind = 3 then do
    let rssi1 ← p.lnkRssi1
    let rssi2 ← p.lnkRssi2
    let linkQuality ← p.lnkLinkQuality
    let snr ← p.lnkSnr
    some (.linkStatistics rssi1.toNat rssi2.toNat linkQuality.toNat (sext snr))
  else if p.kind = 4 then do
    let pitch ← p.attPitch
    let roll ← p.attRoll
    let yaw ← p.attYaw
    some (.attitude (sext pitch) (sext roll) (sext yaw))
  else if p.kind = 5 then do
    let tlen ← p.tlen
    some (.flightMode (slice p.frame 3 (3 + tlen.toNat)))
  else if p.kind = 6 then some (.checksumMismatch (slice p.frame 0 p.len.toNat))
  else some (.malformedPayload p.typ)

/-- The outputs of 10_state.md R38 beside the event fields. -/
structure StatusPort where
  inReady : Bool
  needMore : Bool
  cleared : Bool
  dropValid : Bool
  dropCount : Option Nat
  evtValid : Bool
deriving DecidableEq, Repr

/-- The status outputs in a state, at a level `rst` of the reset input: the levels are functions of the state, and
`in_ready` and `evt_valid` are 0 while `rst` is high (70_reset_and_hazards.md R171; log 14); the pulses are those of the
step that led to the state (44_event_output.md R145; log 4). -/
def statusPort (rst : Bool) (s : State) : StatusPort where
  inReady := !rst && Sys2Proof.Machine.inReady s
  needMore := Sys2Proof.Machine.needMore s
  cleared := s.cleared
  dropValid := s.dropCount.isSome
  dropCount := s.dropCount
  evtValid := !rst && Sys2Proof.Machine.evtValid s

end Sys2Proof.Machine
end

