-- ==== Sys2Proof/Machine/Payload.lean ====
section
/-! DEFINITION. The six FRAME_HDR rows that yield an event of the telemetry or passthrough kinds: the five payload
decodes (43_payload_decode.md R120 to R128) and UnknownPacket (42_dispatch.md R114). -/

namespace Sys2Proof.Machine

/-- GPS (R120): the heading and the surplus are not part of the event. -/
def execGps (lat lon : BitVec 32) (groundspeed heading altitude : BitVec 16) (satellites : Byte)
    (surplus : List Byte) (s : State) : Host.Outcome State Fault Refusal :=
  retire (.gps lat lon groundspeed heading altitude satellites surplus)
    (.gps (sext lat) (sext lon) groundspeed.toNat altitude.toNat satellites.toNat) s

/-- BATTERY (R122): the remainder is ignored. -/
def execBattery (voltage : BitVec 16) (remainder : List Byte) (s : State) : Host.Outcome State Fault Refusal :=
  retire (.battery voltage remainder) (.battery voltage.toNat) s

/-- LINK_STATISTICS (R124): only `snr` is signed. -/
def execLinkStatistics (rssi1 rssi2 linkQuality snr : Byte) (surplus : List Byte) (s : State) :
    Host.Outcome State Fault Refusal :=
  retire (.linkStatistics rssi1 rssi2 linkQuality snr surplus)
    (.linkStatistics rssi1.toNat rssi2.toNat linkQuality.toNat (sext snr)) s

/-- ATTITUDE (R126). -/
def execAttitude (pitch roll yaw : BitVec 16) (surplus : List Byte) (s : State) :
    Host.Outcome State Fault Refusal :=
  retire (.attitude pitch roll yaw surplus) (.attitude (sext pitch) (sext roll) (sext yaw)) s

/-- FLIGHT_MODE (R128): the text under the configured trims. -/
def execFlightMode (payload : List Byte) (s : State) : Host.Outcome State Fault Refusal :=
  retire (.flightMode payload) (.flightMode (flightModeText s.cfg payload)) s

/-- UNKNOWN (42_dispatch.md R114): the raw payload, not interpreted. -/
def execUnknown (typ : Byte) (payload : List Byte) (s : State) : Host.Outcome State Fault Refusal :=
  retire (.unknown typ payload) (.unknownPacket typ payload) s

end Sys2Proof.Machine
end

