-- ==== Sys2Proof/Machine/Restart.lean ====
section
/-! DEFINITION. RESET (70_reset_and_hazards.md R170, R171). -/

namespace Sys2Proof.Machine

/-- RESET (R170): the values of 10_state.md R34 in any state, with no output for what is discarded (R171). The straps
and what the environment offers are not the block's to reset. -/
def execReset (s : State) : Host.Outcome State Fault Refusal :=
  .next
    { s with
      buf := []
      ph := .entry
      frm := none
      evt := none
      acc := 0x00#8
      cleared := false
      dropCount := none
      pos := 0
      inHist := []
      outHist := []
      frameHist := []
      dropTotal := 0
      statusHist := []
      lastSync := none }

end Sys2Proof.Machine
end

