-- ==== Sys2Proof/Machine/Sync.lean ====
section
/-! DEFINITION. The frame synchronizer: its five steps (40_frame_assembler.md R85 to R90), and the algorithm as the
source gives it (R82). -/

namespace Sys2Proof.Machine

/-- CLEAR (R85): discard the whole buffer and end the call with NOTHING. -/
def execClear (s : State) : Host.Outcome State Fault Refusal :=
  guarded (canClear s) { (s.discard s.buf.length).endCall .nothing with cleared := true, lastSync := some .clear } s

/-- TRIM `k` (R86): discard everything before the first sync byte; the call goes on. -/
def execTrim (k : Nat) (s : State) : Host.Outcome State Fault Refusal :=
  guarded (canTrim k s) { s.discard k with ph := .scan, lastSync := some .trim } s

/-- DROP1 (R88): discard the bogus sync byte alone; the call goes on. -/
def execDrop1 (l : Byte) (s : State) : Host.Outcome State Fault Refusal :=
  guarded (canDrop1 l s) { s.discard 1 with ph := .scan, lastSync := some .drop1 } s

/-- EXTRACT (R90): copy the candidate frame into FRM, remove it from BUF, and end the call with FRAME. -/
def execExtract (l : Byte) (s : State) : Host.Outcome State Fault Refusal :=
  guarded (canExtract l s)
    { (s.removeFront (totalLength l)).endCall .frame with
      frm := some (s.buf.take (totalLength l))
      frameHist := s.frameHist ++ [(s.pos, s.buf.take (totalLength l))]
      lastSync := some .extract } s

/-- RET_NEED_MORE (R87): end a call that has discarded something with NEED_MORE; BUF is unchanged. -/
def execRetNeedMore (s : State) : Host.Outcome State Fault Refusal :=
  guarded (canRetNeedMore s) { s.idle.endCall .needMore with lastSync := some .retNeedMore } s

/-- The result of one call of `next_frame()` (R83). -/
inductive FrameResult where
  | frame (f : List Byte)
  | needMore
  | nothing
deriving DecidableEq, Repr

/-- `scan(B)` of 40_frame_assembler.md R82, its recursion bounded by `fuel`; `|B| + 1` is enough, since every recursive
call has a strictly shorter argument (R94). -/
def scanFrame : Nat → List Byte → FrameResult × List Byte
  | 0, b => (.needMore, b)
  | fuel + 1, b =>
    match findSync b with
    | none => (.nothing, [])
    | some k =>
      let b1 := b.drop k
      if b1.length < 2 then (.needMore, b1)
      else
        let ftl := totalLength (byteAt b1 1)
        if ftl < 4 ∨ 64 < ftl then scanFrame fuel (b1.drop 1)
        else if b1.length < ftl then (.needMore, b1)
        else (.frame (b1.take ftl), b1.drop ftl)

/-- `next_frame(B)` of 40_frame_assembler.md R82: the source's seven steps. -/
def nextFrame (b : List Byte) : FrameResult × List Byte :=
  if b.length < 2 then (.needMore, b) else scanFrame (b.length + 1) b

end Sys2Proof.Machine
end

