-- ==== Sys2Proof/Machine/Dispatch.lean ====
section
/-! DEFINITION. The meaning of every instruction, one arm per row of spec/opcode_table.json. -/

namespace Sys2Proof.Machine

def exec (i : Instr) (s : State) : Host.Outcome State Fault Refusal :=
  match i with
  | .gps lat lon groundspeed heading altitude satellites surplus => Sys2Proof.Machine.execGps lat lon groundspeed heading altitude satellites surplus s
  | .battery voltage remainder => Sys2Proof.Machine.execBattery voltage remainder s
  | .linkStatistics rssi1 rssi2 linkQuality snr surplus => Sys2Proof.Machine.execLinkStatistics rssi1 rssi2 linkQuality snr surplus s
  | .attitude pitch roll yaw surplus => Sys2Proof.Machine.execAttitude pitch roll yaw surplus s
  | .flightMode payload => Sys2Proof.Machine.execFlightMode payload s
  | .unknown typ payload => Sys2Proof.Machine.execUnknown typ payload s
  | .checksumMismatch frame => Sys2Proof.Machine.execChecksumMismatch frame s
  | .malformedPayload typ payload => Sys2Proof.Machine.execMalformedPayload typ payload s
  | .clear => Sys2Proof.Machine.execClear s
  | .trim k => Sys2Proof.Machine.execTrim k s
  | .drop1 l => Sys2Proof.Machine.execDrop1 l s
  | .extract l => Sys2Proof.Machine.execExtract l s
  | .retNeedMore => Sys2Proof.Machine.execRetNeedMore s
  | .feed b => Sys2Proof.Machine.execFeed b s
  | .decode => Sys2Proof.Machine.execDecode s
  | .take => Sys2Proof.Machine.execTake s
  | .reset => Sys2Proof.Machine.execReset s

end Sys2Proof.Machine
end

