-- ==== Sys2Proof/Machine/Fetch.lean ====
section
/-! DEFINITION. Which agent moves next, and the instruction its turn runs (00_scope.md R12; log 1, log 11). -/

namespace Sys2Proof.Machine

/-- What an agent's turn comes to. -/
inductive Fetched where
  /-- The instruction to run, and the state it runs in. -/
  | run (i : Instr) (s : State)
  /-- The agent has no enabled step. -/
  | nothing
  /-- FRM breaks the input condition of `decode` (log 12). -/
  | broken
deriving DecidableEq, Repr

/-- Whether an agent has an enabled step: the guards of FEED (with a byte on offer), of the SYNC steps, of DECODE, of
TAKE and of RESET. -/
def enabled (a : Agent) (s : State) : Bool :=
  match a with
  | .src => !s.inp.isEmpty && inReady s
  | .sync =>
    match syncChoice s with
    | .step _ => true
    | .hold => false
    | .stall => false
  | .dec => canDecode s
  | .sink => evtValid s
  | .host => true

/-- Who moves next. The head of the schedule if there is one. Otherwise the free value's choice among the agents with an
enabled step, the host apart, which resets only when the schedule says so; and if that agent has none, the block's own
agents go on by themselves (92_eei_decisions.md D7, 70_reset_and_hazards.md R178 F1 and F2; log 1, log 18). -/
def nextAgent (s : State) : Agent :=
  match s.sched with
  | a :: _ => a
  | [] =>
    let a := Config.freeAgent s.tick
    if a ≠ .host ∧ enabled a s = true then a
    else if enabled .sync s = true then .sync
    else .dec

/-- Spend one entry of the schedule, or one free choice. -/
def advance (s : State) : State :=
  match s.sched with
  | _ :: rest => { s with sched := rest }
  | [] => { s with tick := s.tick + 1 }

/-- The turn of an agent. SRC offers its oldest byte, which leaves it only when it is taken (40_frame_assembler.md R80);
SYNC runs the step that (PH, BUF, frm_valid) selects (R84); DEC runs the row that the frame in FRM selects
(42_dispatch.md R111); SINK takes; the host resets. -/
def fetch (a : Agent) (s : State) : Fetched :=
  match a with
  | .src =>
    match s.inp with
    | [] => .nothing
    | b :: rest => if inReady s then .run (.feed b) { s with inp := rest } else .nothing
  | .sync =>
    match syncChoice s with
    | .step i => .run i s
    | .hold => .nothing
    | .stall => .nothing
  | .dec =>
    match s.frm, s.evt with
    | some f, none =>
      match decodeFrame f with
      | .instr i => .run i s
      | .reject _ => .broken
    | some _, some _ => .nothing
    | none, _ => .nothing
  | .sink => if evtValid s then .run .take s else .nothing
  | .host => .run .reset s

/-- A frame header's frame placed in FRM, EVT free, DEC to move (log 11). -/
def placeFrame (s : State) (w : Nat) : State :=
  { s with frm := some (tableFrame w), evt := none, sched := .dec :: s.sched }

/-- A SYNC header's bytes placed in BUF, FRM free, SYNC to move (log 11). -/
def placeBuffer (s : State) (w : Nat) : State :=
  { s with buf := tableBuffer w, frm := none, sched := .sync :: s.sched }

/-- A table word placed where its agent finds it (log 11). -/
def placeWord (s : State) (nbits w : Nat) : State :=
  if nbits = 24 then placeFrame s w else if nbits = 16 then placeBuffer s w else s

end Sys2Proof.Machine
end

