-- ==== Sys2Proof/Machine/Step.lean ====
section
/-! DEFINITION. One atomic step (00_scope.md R12): the next agent's turn, and the instruction it runs. -/

namespace Sys2Proof.Machine

/-- One step of the machine. -/
def step (s : State) : Host.Outcome State Fault Refusal :=
  match fetch (nextAgent s) (advance s) with
  | .run i t => exec i t
  | .nothing => .next (advance s).idle
  | .broken => .refused .brokenFrame

/-- The state in which the next step runs the instruction of a table word (log 11). -/
def State.withFetchWord (s : State) (nbits w : Nat) : State := placeWord s nbits w

end Sys2Proof.Machine
end

