-- ==== Sys2Proof/Machine/Derived.lean ====
section
/-! DEFINITION. The derived fields, exact rational numbers (43_payload_decode.md R121, R123, R125, R127, R130). They are
what the sink may compute from an event; no step of the block computes them. -/

namespace Sys2Proof.Machine

/-- The derived fields of an event, by kind. -/
inductive Derived where
  /-- GPS (R121): degrees, metres per second, metres, a count. -/
  | gps (latDeg lonDeg speedMps : Rat) (altitudeM : Int) (satellites : Nat)
  /-- Battery (R123): volts. -/
  | battery (volts : Rat)
  /-- Link Statistics (R125): passed through. -/
  | linkStatistics (rssi1 rssi2 linkQuality : Nat) (snr : Int)
  /-- Attitude (R127): radians. -/
  | attitude (pitchRad rollRad yawRad : Rat)
deriving DecidableEq, Repr

/-- The derived fields, for the kinds that have them. -/
def derived : Event → Option Derived
  | .gps lat lon groundspeed altitude satellites =>
    some (.gps ((lat : Rat) / 10000000) ((lon : Rat) / 10000000) ((groundspeed : Rat) / 36) ((altitude : Int) - 1000)
      satellites)
  | .battery voltage => some (.battery ((voltage : Rat) / 10))
  | .linkStatistics rssi1 rssi2 linkQuality snr => some (.linkStatistics rssi1 rssi2 linkQuality snr)
  | .attitude pitch roll yaw =>
    some (.attitude ((pitch : Rat) / 10000) ((roll : Rat) / 10000) ((yaw : Rat) / 10000))
  | .flightMode _ => none
  | .unknownPacket _ _ => none
  | .checksumMismatch _ => none
  | .malformedPayload _ => none

end Sys2Proof.Machine
end

