-- ==== Sys2Proof/Safety.lean ====
section
/-! DEFINITION. What the claims are stated in: the invariants of 10_state.md R33, the histories of R36, runs of SYNC
steps (40_frame_assembler.md R91, R94), the frames of a byte stream (R95) and quiescence (70_reset_and_hazards.md
R177). -/

namespace Sys2Proof

open Machine

/-- The SYNC rows of the opcode table. -/
def Instr.isSyncRow : Instr → Bool
  | .clear => true
  | .trim _ => true
  | .drop1 _ => true
  | .extract _ => true
  | .retNeedMore => true
  | .gps _ _ _ _ _ _ _ => false
  | .battery _ _ => false
  | .linkStatistics _ _ _ _ _ => false
  | .attitude _ _ _ _ => false
  | .flightMode _ => false
  | .unknown _ _ => false
  | .checksumMismatch _ => false
  | .malformedPayload _ _ => false
  | .feed _ => false
  | .decode => false
  | .take => false
  | .reset => false

namespace Safety

/-- (I1) of 10_state.md R33: `|BUF| ≤ BUF_CAP`. -/
def capOk (s : State) : Bool :=
  match s.cfg.bufCap with
  | none => true
  | some cap => s.buf.length ≤ cap.val

/-- (I2): a frame in FRM keeps the length invariants. -/
def frmOk (s : State) : Bool :=
  match s.frm with
  | none => true
  | some f => frameOk f

/-- (I3): BUF is not empty while a call is in progress. -/
def scanOk (s : State) : Bool := s.ph = .entry || 1 ≤ s.buf.length

/-- (I4): after a TRIM, while the call is in progress, the sync byte is at the front. -/
def trimOk (s : State) : Bool := s.lastSync ≠ some .trim || s.ph = .entry || syncAtFront s

/-- What EVT holds is the decode of the frame it holds (42_dispatch.md R110, 44_event_output.md R141). -/
def evtOk (s : State) : Bool :=
  match s.evt with
  | none => true
  | some r => decodeEvent s.cfg r.frame = some r.ev

/-- The invariant of the registers: (I1), (I2), (I3), (I4) and the content of EVT. -/
def regsOk (s : State) : Bool := capOk s && frmOk s && scanOk s && trimOk s && evtOk s

/-- (I5): the bytes removed so far, POS of them, followed by BUF, are the bytes fed (10_state.md R33, R35). -/
def streamOk (s : State) : Prop := s.pos ≤ s.inHist.length ∧ s.inHist.drop s.pos = s.buf

/-- Every removed byte was discarded once or extracted once, and each extracted frame is the stretch of the fed bytes at
its position, in order and without overlap (10_state.md R33 I5, R35, R36; 20_memory.md R51). -/
def framesOk (s : State) : Prop :=
  s.pos = s.dropTotal + (s.frameHist.map (fun x => x.2.length)).sum ∧
  (∀ x ∈ s.frameHist, x.1 + x.2.length ≤ s.pos ∧ slice s.inHist x.1 (x.1 + x.2.length) = x.2 ∧ frameOk x.2 = true) ∧
  s.frameHist.Pairwise (fun x y => x.1 + x.2.length ≤ y.1)

/-- One candidate frame gives exactly one event, in stream order: the decodes of the frames extracted are the events
taken, then the one in EVT, then the one FRM will give (20_memory.md R51 O3 and O4, 44_event_output.md R146). -/
def eventsOk (s : State) : Prop :=
  s.frameHist.map (fun x => decodeEvent s.cfg x.2) =
    s.outHist.map some ++ s.evt.toList.map (fun r => some r.ev) ++ s.frm.toList.map (decodeEvent s.cfg)

/-- The frames of a byte stream from position `pos` on, after skipping `skip` bytes of a frame already found: what the
algorithm of 40_frame_assembler.md R82 extracts from it, with no reference to calls, phases or chunks. -/
def framesAt : Nat → Nat → List Byte → List (Nat × List Byte)
  | _, _, [] => []
  | skip + 1, pos, _ :: bs => framesAt skip (pos + 1) bs
  | 0, pos, b :: bs =>
    if b ≠ syncByte then framesAt 0 (pos + 1) bs
    else
      match bs with
      | [] => []
      | l :: rest =>
        if badLength l then framesAt 0 (pos + 1) (l :: rest)
        else if (b :: l :: rest).length < totalLength l then []
        else (pos, (b :: l :: rest).take (totalLength l)) :: framesAt (totalLength l - 1) (pos + 1) (l :: rest)

/-- The frames of a whole stream, with their positions. -/
def streamFrames (xs : List Byte) : List (Nat × List Byte) := framesAt 0 0 xs

/-- What has been extracted is settled: whatever bytes follow, the frames of the whole stream are those extracted so
far, then those of the bytes still in BUF and after (40_frame_assembler.md R95: a decision "is never revised when later
bytes arrive"). -/
def settledOk (s : State) : Prop :=
  ∀ ys, streamFrames (s.inHist ++ ys) = s.frameHist ++ framesAt 0 s.pos (s.buf ++ ys)

/-- Quiescence (70_reset_and_hazards.md R177). -/
def quiescent (s : State) : Bool :=
  s.ph = .entry && needMore s && !frmValid s && !evtValid s && s.inp.isEmpty

/-- No SYNC step is enabled: a HOLD or a STALL (40_frame_assembler.md R84). -/
def syncWaits (s : State) : Bool := !enabled .sync s

/-- At most `n` SYNC steps, one after another, as long as one is enabled. -/
def syncRun : Nat → State → State
  | 0, s => s
  | n + 1, s =>
    match syncChoice s with
    | .step i =>
      match exec i s with
      | .next t => syncRun n t
      | .fault _ => s
      | .refused _ => s
    | .hold => s
    | .stall => s

/-- One call of `next_frame` as SYNC steps (R91): steps up to the first return to ENTRY, at most `n`. -/
def syncCall : Nat → State → State
  | 0, s => s
  | n + 1, s =>
    match syncChoice s with
    | .step i =>
      match exec i s with
      | .next t => if t.ph = .entry then t else syncCall n t
      | .fault _ => s
      | .refused _ => s
    | .hold => s
    | .stall => s

/-- `feed(bytes)`: one FEED per byte, in order (R81). -/
def feedAll : List Byte → State → State
  | [], s => s
  | b :: bs, s =>
    match exec (.feed b) s with
    | .next t => feedAll bs t
    | .fault _ => s
    | .refused _ => s

/-- Room for `n` more bytes in BUF. -/
def roomFor (n : Nat) (s : State) : Bool :=
  match s.cfg.bufCap with
  | none => true
  | some cap => s.buf.length + n ≤ cap.val

/-- One for a call in progress. -/
def callOpen : Phase → Nat
  | .entry => 0
  | .scan => 1

/-- The work left when no more bytes come and the sink and the block go on (70_reset_and_hazards.md R184): every step
that is taken lowers it, RESET apart. -/
def workLeft (s : State) : Nat :=
  3 * s.inp.length + 2 * s.buf.length + callOpen s.ph + 2 * s.frm.toList.length + s.evt.toList.length

/-- Noise that cannot be taken for a frame start: no sync byte is followed by a plausible length, the byte after the last
being `next` (90_conflicts.md C1). -/
def harmlessBefore (next : Byte) : List Byte → Bool
  | [] => true
  | [b] => b ≠ syncByte || badLength next
  | b :: l :: rest => (b ≠ syncByte || badLength l) && harmlessBefore next (l :: rest)

/-- One byte of a sequence with one bit inverted (41_checksum.md R105). -/
def flipBit (f : List Byte) (i j : Nat) : List Byte := f.set i (byteAt f i ^^^ (1#8 <<< j))

end Safety

end Sys2Proof
end

