-- ==== Sys2Proof/Certificates/Slice0/Obligations.lean ====
section
/-! DEFINITION. The statements for the provers. Rules R<n> are those of spec/; "log <n>" is notes/assumptions/<n>.md. -/

open Sys2Proof Sys2Proof.Machine Sys2Proof.Safety

/-! ## Encoding -/

/-- Every well-formed frame row decodes from its own frame, with every operand at every value the format admits
(30_encoding.md R60, R66, R70 to R75; log 9). -/
def Obligations.FrameRowsDecodeTheirEncoding : Prop :=
  ∀ (i : Instr) (f : List Byte), i.isFrameRow = true → i.wf = true → encode i = some f →
    decodeFrame f = .instr i

/-- A candidate frame is the encoding of the one row it decodes to, and of no other bytes: no byte of a frame is dropped
by the decoder (R60; 42_dispatch.md R117; log 9). -/
def Obligations.DecodedFramesEncodeBack : Prop :=
  (∀ (f : List Byte) (i : Instr), decodeFrame f = .instr i →
    i.isFrameRow = true ∧ i.wf = true ∧ encode i = some f) ∧
  ∀ f : List Byte, frameOk f = true ↔ ∃ i, decodeFrame f = .instr i

/-- Every well-formed SYNC row with an encoding is selected by a buffer that begins with its words, in either phase,
whatever follows: for CLEAR, where no sync byte follows; for EXTRACT, where the frame is complete (30_encoding.md R68;
log 10). -/
def Obligations.SyncRowsDecodeTheirEncoding : Prop :=
  ∀ (i : Instr) (w rest : List Byte) (ph : Phase), i.isSyncRow = true → i.wf = true → encode i = some w →
    (i = .clear → ∀ b ∈ rest, b ≠ 0xC8#8) →
    (∀ l, i = .extract l → l.toNat + 2 ≤ (w ++ rest).length) →
    decodeSync ph (w ++ rest) false = .step i

/-- The named frames V1 to V6, V12 and one with a flipped bit of 95_test_vectors.md section 2 decode to their rows. -/
def Obligations.SpecFramesDecodeToTheirRows : Prop :=
  decodeFrame [0xC8, 0x11, 0x02, 0x16, 0x83, 0xFE, 0x08, 0xB7, 0x08, 0x48, 0x30, 0x01, 0x68, 0x00, 0x00, 0x07, 0xD0,
      0x0C, 0x74] = .instr (.gps 0x1683FE08 0xB7084830 0x0168 0x0000 0x07D0 0x0C []) ∧
  decodeFrame [0xC8, 0x04, 0x08, 0x00, 0xF0, 0x62] = .instr (.battery 0x00F0 []) ∧
  decodeFrame [0xC8, 0x06, 0xFF, 0xDE, 0xAD, 0xBE, 0xEF, 0x0C] = .instr (.unknown 0xFF [0xDE, 0xAD, 0xBE, 0xEF]) ∧
  decodeFrame [0xC8, 0x06, 0x14, 0x5A, 0x60, 0x64, 0xF6, 0x85] = .instr (.linkStatistics 0x5A 0x60 0x64 0xF6 []) ∧
  decodeFrame [0xC8, 0x08, 0x1E, 0x03, 0xE8, 0xF8, 0x30, 0x7A, 0xB8, 0xAC] =
    .instr (.attitude 0x03E8 0xF830 0x7AB8 []) ∧
  decodeFrame [0xC8, 0x07, 0x21, 0x41, 0x43, 0x52, 0x4F, 0x00, 0x80] =
    .instr (.flightMode [0x41, 0x43, 0x52, 0x4F, 0x00]) ∧
  decodeFrame [0xC8, 0x03, 0x08, 0x01, 0x8D] = .instr (.malformedPayload 0x08 [0x01]) ∧
  decodeFrame [0xC8, 0x04, 0x08, 0x00, 0xF1, 0x62] =
    .instr (.checksumMismatch [0xC8, 0x04, 0x08, 0x00, 0xF1, 0x62])

/-- Multi-byte integers are big-endian (20_memory.md R46). That a signed field is two's complement, as the last three
clauses say, is the model's choice: log 22, after 00_scope.md R9 and 30_encoding.md R69, which the spec itself marks as
general knowledge. -/
def Obligations.MultiByteFieldsAreBigEndian : Prop :=
  (∀ (p : List Byte) (o : Nat),
    (u16be p o).toNat = (byteAt p o).toNat * 256 + (byteAt p (o + 1)).toNat ∧
    (u32be p o).toNat = (byteAt p o).toNat * 2 ^ 24 + (byteAt p (o + 1)).toNat * 2 ^ 16 +
      (byteAt p (o + 2)).toNat * 2 ^ 8 + (byteAt p (o + 3)).toNat) ∧
  (∀ v : BitVec 8, sext v = if v.toNat < 128 then (v.toNat : Int) else (v.toNat : Int) - 256) ∧
  (∀ v : BitVec 16, sext v = if v.toNat < 32768 then (v.toNat : Int) else (v.toNat : Int) - 65536) ∧
  ∀ v : BitVec 32, sext v = if v.toNat < 2147483648 then (v.toNat : Int) else (v.toNat : Int) - 4294967296

/-! ## The checksum -/

/-- The table `T[x] = crc8_byte(0x00, x)` of 41_checksum.md R107, all 256 entries. -/
def Obligations.CrcTableIsTheSpecs : Prop :=
  (List.range 256).map (fun x => (crc8Byte 0x00#8 (BitVec.ofNat 8 x)).toNat) =
    [0x00, 0xD5, 0x7F, 0xAA, 0xFE, 0x2B, 0x81, 0x54, 0x29, 0xFC, 0x56, 0x83, 0xD7, 0x02, 0xA8, 0x7D] ++
    [0x52, 0x87, 0x2D, 0xF8, 0xAC, 0x79, 0xD3, 0x06, 0x7B, 0xAE, 0x04, 0xD1, 0x85, 0x50, 0xFA, 0x2F] ++
    [0xA4, 0x71, 0xDB, 0x0E, 0x5A, 0x8F, 0x25, 0xF0, 0x8D, 0x58, 0xF2, 0x27, 0x73, 0xA6, 0x0C, 0xD9] ++
    [0xF6, 0x23, 0x89, 0x5C, 0x08, 0xDD, 0x77, 0xA2, 0xDF, 0x0A, 0xA0, 0x75, 0x21, 0xF4, 0x5E, 0x8B] ++
    [0x9D, 0x48, 0xE2, 0x37, 0x63, 0xB6, 0x1C, 0xC9, 0xB4, 0x61, 0xCB, 0x1E, 0x4A, 0x9F, 0x35, 0xE0] ++
    [0xCF, 0x1A, 0xB0, 0x65, 0x31, 0xE4, 0x4E, 0x9B, 0xE6, 0x33, 0x99, 0x4C, 0x18, 0xCD, 0x67, 0xB2] ++
    [0x39, 0xEC, 0x46, 0x93, 0xC7, 0x12, 0xB8, 0x6D, 0x10, 0xC5, 0x6F, 0xBA, 0xEE, 0x3B, 0x91, 0x44] ++
    [0x6B, 0xBE, 0x14, 0xC1, 0x95, 0x40, 0xEA, 0x3F, 0x42, 0x97, 0x3D, 0xE8, 0xBC, 0x69, 0xC3, 0x16] ++
    [0xEF, 0x3A, 0x90, 0x45, 0x11, 0xC4, 0x6E, 0xBB, 0xC6, 0x13, 0xB9, 0x6C, 0x38, 0xED, 0x47, 0x92] ++
    [0xBD, 0x68, 0xC2, 0x17, 0x43, 0x96, 0x3C, 0xE9, 0x94, 0x41, 0xEB, 0x3E, 0x6A, 0xBF, 0x15, 0xC0] ++
    [0x4B, 0x9E, 0x34, 0xE1, 0xB5, 0x60, 0xCA, 0x1F, 0x62, 0xB7, 0x1D, 0xC8, 0x9C, 0x49, 0xE3, 0x36] ++
    [0x19, 0xCC, 0x66, 0xB3, 0xE7, 0x32, 0x98, 0x4D, 0x30, 0xE5, 0x4F, 0x9A, 0xCE, 0x1B, 0xB1, 0x64] ++
    [0x72, 0xA7, 0x0D, 0xD8, 0x8C, 0x59, 0xF3, 0x26, 0x5B, 0x8E, 0x24, 0xF1, 0xA5, 0x70, 0xDA, 0x0F] ++
    [0x20, 0xF5, 0x5F, 0x8A, 0xDE, 0x0B, 0xA1, 0x74, 0x09, 0xDC, 0x76, 0xA3, 0xF7, 0x22, 0x88, 0x5D] ++
    [0xD6, 0x03, 0xA9, 0x7C, 0x28, 0xFD, 0x57, 0x82, 0xFF, 0x2A, 0x80, 0x55, 0x01, 0xD4, 0x7E, 0xAB] ++
    [0x84, 0x51, 0xFB, 0x2E, 0x7A, 0xAF, 0x05, 0xD0, 0xAD, 0x78, 0xD2, 0x07, 0x53, 0x86, 0x2C, 0xF9]

/-- `crc8_byte` as 41_checksum.md R101 writes it, on numbers: exclusive-or, then eight times a shift with bit 7 tested
first and the result cut to 8 bits; it is the table at `acc ^ b`; and the rule's example. -/
def Obligations.CrcByteIsShiftAndXor : Prop :=
  (∀ acc b : Byte,
    (crc8Byte acc b).toNat =
      Nat.repeat (fun a => if a.testBit 7 then (((a <<< 1) ^^^ 0xD5) % 256) else ((a <<< 1) % 256)) 8
        (acc.toNat ^^^ b.toNat)) ∧
  (∀ acc b : Byte, crc8Byte acc b = crc8Byte 0x00#8 (acc ^^^ b)) ∧
  crc8Byte 0x00#8 0x08#8 = 0x29#8

/-- `crc8` folds the bytes in offset order from zero (41_checksum.md R102), leading zero bytes are not detected (R106 b),
and the worked values of R108. -/
def Obligations.CrcFoldsInOffsetOrder : Prop :=
  crc8 [] = 0x00#8 ∧
  (∀ (s : List Byte) (b : Byte), crc8 (s ++ [b]) = crc8Byte (crc8 s) b) ∧
  (∀ s : List Byte, crc8 (0x00#8 :: s) = crc8 s) ∧
  crc8 [0x08, 0x00, 0xF0] = 0x62#8 ∧
  crc8 [0x31, 0x32, 0x33, 0x34, 0x35, 0x36, 0x37, 0x38, 0x39] = 0xBC#8

/-- A frame is valid exactly when the checksum of its bytes from the type on equals its last byte, and exactly when
folding the last byte in as well gives zero (41_checksum.md R104). -/
def Obligations.CrcOkIffWholeFoldIsZero : Prop :=
  ∀ f : List Byte, 4 ≤ f.length →
    (crcOk f = true ↔ crc8 (slice f 2 (f.length - 1)) = byteAt f (f.length - 1)) ∧
    (crcOk f = true ↔ crc8 (slice f 2 f.length) = 0x00#8)

/-- `crc_ok(frame(t, p))` for every type and every payload of at most 60 bytes, and the frame keeps the length
invariants (41_checksum.md R105, 30_encoding.md R79). -/
def Obligations.BuiltFramesAreValid : Prop :=
  ∀ (t : Byte) (p : List Byte), p.length ≤ 60 →
    frameOk (mkFrame t p) = true ∧ crcOk (mkFrame t p) = true ∧
    frameType (mkFrame t p) = t ∧ framePayload (mkFrame t p) = p

/-- Flipping any single bit of type, payload or crc byte of a valid frame makes it invalid, and it then decodes as a
checksum mismatch (41_checksum.md R105). -/
def Obligations.SingleBitFlipIsDetected : Prop :=
  ∀ (f : List Byte) (i j : Nat), frameOk f = true → crcOk f = true → 2 ≤ i → i < f.length → j < 8 →
    crcOk (flipBit f i j) = false ∧
    decodeFrame (flipBit f i j) = .instr (.checksumMismatch (flipBit f i j))

/-! ## FEED -/

/-- FEED completes exactly under its guard, with the byte at the back of BUF and nothing else changed; otherwise the
byte is not taken (40_frame_assembler.md R80). The pulses are held by log 4. -/
def Obligations.FeedAppendsTheByte : Prop :=
  ∀ (b : Byte) (s : State),
    (s.ph = .entry → (∀ cap, s.cfg.bufCap = some cap → s.buf.length < cap.val) →
      exec (.feed b) s =
        .next { s with
          buf := s.buf ++ [b]
          inHist := s.inHist ++ [b]
          cleared := false
          dropCount := none }) ∧
    (s.ph = .scan ∨ (∃ cap, s.cfg.bufCap = some cap ∧ cap.val ≤ s.buf.length) →
      exec (.feed b) s = .next { s with cleared := false, dropCount := none })

/-- Append: the byte comes to stand at the old length, every byte already in BUF keeps its offset and value, and no
other step makes BUF longer (20_memory.md R41). -/
def Obligations.AppendKeepsOffsets : Prop :=
  (∀ (b : Byte) (s t : State), inReady s = true → exec (.feed b) s = .next t →
    readBuf t s.buf.length = some b ∧ (∀ a, a ≠ s.buf.length → readBuf t a = readBuf s a) ∧
    t.buf.length = s.buf.length + 1) ∧
  ∀ (i : Instr) (s t : State), (∀ b, i ≠ .feed b) → exec i s = .next t → t.buf.length ≤ s.buf.length

/-- `feed(bytes)` of a chunk is that many FEED steps in the chunk's order; a chunk of zero bytes is no step at all
(40_frame_assembler.md R81). The pulses are held by log 4. -/
def Obligations.ChunkIsFedByteByByte : Prop :=
  ∀ (bytes : List Byte) (s : State), s.ph = .entry → roomFor bytes.length s = true →
    feedAll bytes s =
      if bytes = [] then s
      else { s with
        buf := s.buf ++ bytes
        inHist := s.inHist ++ bytes
        cleared := false
        dropCount := none }

/-! ## The SYNC steps -/

/-- CLEAR: with no sync byte in BUF, all of BUF is discarded and the call ends with NOTHING (40_frame_assembler.md
R85). The pulses are held by log 4, `lastSync` by log 24. -/
def Obligations.ClearDiscardsTheBuffer : Prop :=
  ∀ s : State, s.ph = .scan ∨ 2 ≤ s.buf.length → (∀ b ∈ s.buf, b ≠ 0xC8#8) →
    exec .clear s =
      .next { s with
        buf := []
        ph := .entry
        cleared := true
        dropCount := some s.buf.length
        pos := s.pos + s.buf.length
        dropTotal := s.dropTotal + s.buf.length
        statusHist := s.statusHist ++ [.nothing]
        lastSync := some .clear }

/-- TRIM: with the first sync byte at offset `k > 0`, the `k` bytes before it are discarded and the call goes on
(R86). The pulses are held by log 4, `lastSync` by log 24. -/
def Obligations.TrimDropsTheNoise : Prop :=
  ∀ (k : Nat) (s : State), s.ph = .scan ∨ 2 ≤ s.buf.length → 0 < k → s.buf[k]? = some 0xC8#8 →
    (∀ j < k, s.buf[j]? ≠ some 0xC8#8) →
    exec (.trim k) s =
      .next { s with
        buf := s.buf.drop k
        ph := .scan
        cleared := false
        dropCount := some k
        pos := s.pos + k
        dropTotal := s.dropTotal + k
        lastSync := some .trim }

/-- DROP1: an implausible length costs exactly one byte, the bogus sync byte, and the call goes on (R88). The pulses
are held by log 4, `lastSync` by log 24. -/
def Obligations.Drop1DropsTheBogusSync : Prop :=
  ∀ (l : Byte) (s : State), s.buf[0]? = some 0xC8#8 → s.buf[1]? = some l → l.toNat < 2 ∨ 62 < l.toNat →
    exec (.drop1 l) s =
      .next { s with
        buf := s.buf.drop 1
        ph := .scan
        cleared := false
        dropCount := some 1
        pos := s.pos + 1
        dropTotal := s.dropTotal + 1
        lastSync := some .drop1 }

/-- EXTRACT: a complete frame at the front is copied into a free FRM and removed from BUF, and the call ends with
FRAME (R90). The pulses are held by log 4, `lastSync` by log 24. -/
def Obligations.ExtractCopiesTheFrame : Prop :=
  ∀ (l : Byte) (s : State), s.buf[0]? = some 0xC8#8 → s.buf[1]? = some l → 2 ≤ l.toNat → l.toNat ≤ 62 →
    l.toNat + 2 ≤ s.buf.length → s.frm = none →
    exec (.extract l) s =
      .next { s with
        frm := some (s.buf.take (l.toNat + 2))
        buf := s.buf.drop (l.toNat + 2)
        ph := .entry
        cleared := false
        dropCount := none
        pos := s.pos + (l.toNat + 2)
        frameHist := s.frameHist ++ [(s.pos, s.buf.take (l.toNat + 2))]
        statusHist := s.statusHist ++ [.frame]
        lastSync := some .extract }

/-- RET_NEED_MORE: a call that has discarded something and lacks bytes ends with NEED_MORE, and beside ghost state only
PH changes (R87). The pulses are held by log 4, `lastSync` by log 24. -/
def Obligations.RetNeedMoreChangesThePhase : Prop :=
  ∀ s : State, s.ph = .scan → s.buf[0]? = some 0xC8#8 →
    (s.buf.length < 2 ∨
      ∃ l : Byte, s.buf[1]? = some l ∧ 2 ≤ l.toNat ∧ l.toNat ≤ 62 ∧ s.buf.length < l.toNat + 2) →
    exec .retNeedMore s =
      .next { s with
        ph := .entry
        cleared := false
        dropCount := none
        statusHist := s.statusHist ++ [.needMore]
        lastSync := some .retNeedMore }

/-- A step whose guard is false has no effect and is not taken (00_scope.md R11; log 2): the SYNC rows that
(PH, BUF, frm_valid) does not select, the DEC rows while FRM is free or EVT occupied or when FRM selects another row, and
TAKE with nothing to take. The pulses of an earlier step are over. -/
def Obligations.FalseGuardHasNoEffect : Prop :=
  ∀ (i : Instr) (s : State),
    (i.isSyncRow = true ∧ syncChoice s ≠ .step i) ∨
    ((i.isFrameRow = true ∨ i = .decode) ∧ (s.frm = none ∨ s.evt ≠ none)) ∨
    (i.isFrameRow = true ∧ ∃ f j, s.frm = some f ∧ decodeFrame f = .instr j ∧ j ≠ i) ∨
    (i = .take ∧ s.evt = none) →
    exec i s = .next { s with cleared := false, dropCount := none }

/-- The selection of 40_frame_assembler.md R84 is the guards of R85 to R90: each step is selected exactly when its guard
holds, nothing but a SYNC row is selected, and a STALL is exactly a complete frame at the front with FRM occupied. -/
def Obligations.SelectionIsTheGuards : Prop :=
  ∀ s : State,
    (syncChoice s = .step .clear ↔ (s.ph = .scan ∨ 2 ≤ s.buf.length) ∧ ∀ b ∈ s.buf, b ≠ 0xC8#8) ∧
    (∀ k, syncChoice s = .step (.trim k) ↔
      (s.ph = .scan ∨ 2 ≤ s.buf.length) ∧ 0 < k ∧ s.buf[k]? = some 0xC8#8 ∧ ∀ j < k, s.buf[j]? ≠ some 0xC8#8) ∧
    (syncChoice s = .step .retNeedMore ↔
      s.ph = .scan ∧ s.buf[0]? = some 0xC8#8 ∧
        (s.buf.length < 2 ∨
          ∃ l : Byte, s.buf[1]? = some l ∧ 2 ≤ l.toNat ∧ l.toNat ≤ 62 ∧ s.buf.length < l.toNat + 2)) ∧
    (∀ l : Byte, syncChoice s = .step (.drop1 l) ↔
      s.buf[0]? = some 0xC8#8 ∧ s.buf[1]? = some l ∧ (l.toNat < 2 ∨ 62 < l.toNat)) ∧
    (∀ l : Byte, syncChoice s = .step (.extract l) ↔
      s.buf[0]? = some 0xC8#8 ∧ s.buf[1]? = some l ∧ 2 ≤ l.toNat ∧ l.toNat ≤ 62 ∧ l.toNat + 2 ≤ s.buf.length ∧
        s.frm = none) ∧
    (syncChoice s = .stall ↔
      s.frm ≠ none ∧ s.buf[0]? = some 0xC8#8 ∧
        ∃ l : Byte, s.buf[1]? = some l ∧ 2 ≤ l.toNat ∧ l.toNat ≤ 62 ∧ l.toNat + 2 ≤ s.buf.length) ∧
    ∀ i, syncChoice s = .step i → i.isSyncRow = true

/-- `need_more` is 1 exactly in the HOLD states (40_frame_assembler.md R93), which are the two of R89. -/
def Obligations.NeedMoreExactlyInHold : Prop :=
  ∀ s : State,
    (needMore s = true ↔ syncChoice s = .hold) ∧
    (syncChoice s = .hold ↔
      s.ph = .entry ∧
        (s.buf.length < 2 ∨
          s.buf[0]? = some 0xC8#8 ∧
            ∃ l : Byte, s.buf[1]? = some l ∧ 2 ≤ l.toNat ∧ l.toNat ≤ 62 ∧ s.buf.length < l.toNat + 2))

/-- Front removal: each SYNC step removes its number of bytes, and the byte formerly at offset `i ≥ n` is afterwards at
offset `i - n` with the same value (20_memory.md R42). -/
def Obligations.FrontRemovalShiftsOffsets : Prop :=
  ∀ (i : Instr) (s t : State) (n : Nat), syncChoice s = .step i → exec i s = .next t →
    (i = .clear ∧ n = s.buf.length) ∨ i = .trim n ∨ (∃ l, i = .drop1 l ∧ n = 1) ∨
      (∃ l : Byte, i = .extract l ∧ n = l.toNat + 2) ∨ (i = .retNeedMore ∧ n = 0) →
    t.buf.length = s.buf.length - n ∧ ∀ a, readBuf t a = readBuf s (n + a)

/-- What the SYNC steps leave alone: EVT, ACC, the configuration, the environment and the histories of other agents; FRM
and its history too, but for EXTRACT, after which FRM reads as the front of BUF did (10_state.md R21). -/
def Obligations.SyncRowsLeaveTheRest : Prop :=
  ∀ (i : Instr) (s t : State), i.isSyncRow = true → exec i s = .next t →
    t.evt = s.evt ∧ t.acc = s.acc ∧ t.cfg = s.cfg ∧ t.inp = s.inp ∧ t.sched = s.sched ∧ t.tick = s.tick ∧
    t.inHist = s.inHist ∧ t.outHist = s.outHist ∧
    ((∀ l, i ≠ .extract l) → t.frameHist = s.frameHist ∧ ∀ a, readFrm t a = readFrm s a) ∧
    (∀ l : Byte, i = .extract l → syncChoice s = .step i →
      (∀ a < l.toNat + 2, readFrm t a = readBuf s a) ∧ ∀ a, l.toNat + 2 ≤ a → readFrm t a = none)

/-- One call as SYNC steps is `next_frame` of the source: the same result, the same frame, the same remaining buffer, in
at most `|BUF|` steps (40_frame_assembler.md R91, R82, R94). -/
def Obligations.CallIsNextFrame : Prop :=
  ∀ s : State, s.ph = .entry → s.frm = none →
    (syncCall s.buf.length s).ph = .entry ∧
    (syncCall s.buf.length s).buf = (nextFrame s.buf).2 ∧
    match (nextFrame s.buf).1 with
    | .frame f =>
      (syncCall s.buf.length s).frm = some f ∧
        (syncCall s.buf.length s).statusHist = s.statusHist ++ [.frame]
    | .nothing =>
      (syncCall s.buf.length s).frm = none ∧
        (syncCall s.buf.length s).statusHist = s.statusHist ++ [.nothing]
    | .needMore =>
      (syncCall s.buf.length s).frm = none ∧
        (syncCall s.buf.length s = s ∨
          (syncCall s.buf.length s).statusHist = s.statusHist ++ [.needMore])

/-- The three results of `next_frame` (40_frame_assembler.md R83): what each leaves in the buffer, and that a buffer
left by NEED_MORE or NOTHING gives NEED_MORE again and keeps its bytes. -/
def Obligations.NextFrameResults : Prop :=
  ∀ b : List Byte,
    match nextFrame b with
    | (.frame f, rest) => frameOk f = true ∧ ∃ noise, b = noise ++ f ++ rest
    | (.nothing, rest) => rest = [] ∧ nextFrame rest = (.needMore, rest)
    | (.needMore, rest) =>
      ((rest = b ∧ b.length < 2) ∨ rest[0]? = some 0xC8#8 ∧ ∃ noise, b = noise ++ rest) ∧
        nextFrame rest = (.needMore, rest)

/-- Every SYNC step ends the call or removes at least one byte of BUF and leaves at least one; and from any state at most
`|BUF| + 1` SYNC steps lead to a HOLD or a STALL (40_frame_assembler.md R94, 70_reset_and_hazards.md R184). -/
def Obligations.SyncMakesProgress : Prop :=
  (∀ (i : Instr) (s t : State), syncChoice s = .step i → exec i s = .next t →
    (t.ph = .entry ∧ t.buf.length ≤ s.buf.length) ∨
      (t.ph = .scan ∧ t.buf.length < s.buf.length ∧ 1 ≤ t.buf.length)) ∧
  ∀ s : State, syncWaits (syncRun (s.buf.length + 1) s) = true

/-- A full buffer never deadlocks: SYNC has an enabled step, or stalls on a frame that DECODE or the sink's TAKE will
move (40_frame_assembler.md R96). -/
def Obligations.FullBufferNeverHolds : Prop :=
  ∀ (s : State) (cap : { n : Nat // 64 ≤ n }), s.cfg.bufCap = some cap → cap.val ≤ s.buf.length →
    (∃ i, syncChoice s = .step i) ∨ (syncChoice s = .stall ∧ (canDecode s = true ∨ evtValid s = true))

/-- The one-byte buffer, treated in three ways (40_frame_assembler.md R92). -/
def Obligations.OneByteBufferThreeWays : Prop :=
  (∀ (s : State) (x : Byte), s.buf = [x] →
    (s.ph = .entry → syncChoice s = .hold ∧ nextFrame s.buf = (.needMore, [x])) ∧
    (s.ph = .scan → x ≠ 0xC8#8 → syncChoice s = .step .clear ∧ ∃ t, exec .clear s = .next t ∧ t.buf = []) ∧
    (s.ph = .scan → x = 0xC8#8 →
      syncChoice s = .step .retNeedMore ∧ ∃ t, exec .retNeedMore s = .next t ∧ t.buf = [0xC8#8])) ∧
  nextFrame [0xC8, 0x55] = (.nothing, []) ∧
  nextFrame [0x55] = (.needMore, [0x55])

/-! ## DECODE and its rows -/

/-- DECODE completes on every candidate frame in FRM when EVT is free, writing the one event of `decode(f)`, freeing
FRM and changing nothing else but ACC (42_dispatch.md R110; 41_checksum.md R102 for ACC, which nothing reads). ACC and
the pulses are the model's: log 6, log 4. -/
def Obligations.DecodeWritesOneEvent : Prop :=
  ∀ (s : State) (f : List Byte), s.frm = some f → s.evt = none → frameOk f = true →
    ∃ e, decodeEvent s.cfg f = some e ∧
      exec .decode s =
        .next { s with
          evt := some { ev := e, frame := f }
          frm := none
          acc := crc8 (slice f 2 (f.length - 1))
          cleared := false
          dropCount := none }

/-- DECODE is the FRAME_HDR row that its frame selects (42_dispatch.md R110, R111; log 9); and both are refused on a
frame that breaks the input condition of `decode`, which does not occur (R111; log 12). -/
def Obligations.DecodeRunsTheSelectedRow : Prop :=
  ∀ (s : State) (f : List Byte), s.frm = some f → s.evt = none →
    (∀ i, decodeFrame f = .instr i → exec .decode s = exec i s) ∧
    (frameOk f = false →
      exec .decode s = .refused .brokenFrame ∧ ∀ i, i.isFrameRow = true → exec i s = .refused .brokenFrame)

/-- GPS completes on its frame, with every operand at every value, and its event carries the signed positions and the
three unsigned fields, not the heading and not the surplus (43_payload_decode.md R120). ACC and the pulses are the
model's: log 6, log 4. -/
def Obligations.GpsFrameGivesItsFields : Prop :=
  ∀ (lat lon : BitVec 32) (groundspeed heading altitude : BitVec 16) (satellites : Byte) (surplus f : List Byte)
    (s : State),
    surplus.length ≤ 45 →
    f = mkFrame 0x02#8 (gpsPayload lat lon groundspeed heading altitude satellites surplus) →
    s.frm = some f → s.evt = none →
    exec (.gps lat lon groundspeed heading altitude satellites surplus) s =
      .next { s with
        evt := some
          { ev := .gps lat.toInt lon.toInt groundspeed.toNat altitude.toNat satellites.toNat, frame := f }
        frm := none
        acc := crc8 (slice f 2 (f.length - 1))
        cleared := false
        dropCount := none }

/-- BATTERY completes on its frame; the remainder is ignored (43_payload_decode.md R122). ACC and the pulses are the
model's: log 6, log 4. -/
def Obligations.BatteryFrameGivesTheVoltage : Prop :=
  ∀ (voltage : BitVec 16) (remainder f : List Byte) (s : State),
    remainder.length ≤ 58 →
    f = mkFrame 0x08#8 (be16 voltage ++ remainder) →
    s.frm = some f → s.evt = none →
    exec (.battery voltage remainder) s =
      .next { s with
        evt := some { ev := .battery voltage.toNat, frame := f }
        frm := none
        acc := crc8 (slice f 2 (f.length - 1))
        cleared := false
        dropCount := none }

/-- LINK_STATISTICS completes on its frame; `snr` alone is signed (43_payload_decode.md R124). ACC and the pulses are
the model's: log 6, log 4. -/
def Obligations.LinkFrameGivesItsFields : Prop :=
  ∀ (rssi1 rssi2 linkQuality snr : Byte) (surplus f : List Byte) (s : State),
    surplus.length ≤ 56 →
    f = mkFrame 0x14#8 ([rssi1, rssi2, linkQuality, snr] ++ surplus) →
    s.frm = some f → s.evt = none →
    exec (.linkStatistics rssi1 rssi2 linkQuality snr surplus) s =
      .next { s with
        evt := some
          { ev := .linkStatistics rssi1.toNat rssi2.toNat linkQuality.toNat snr.toInt, frame := f }
        frm := none
        acc := crc8 (slice f 2 (f.length - 1))
        cleared := false
        dropCount := none }

/-- ATTITUDE completes on its frame; its three fields are signed (43_payload_decode.md R126). ACC and the pulses are
the model's: log 6, log 4. -/
def Obligations.AttitudeFrameGivesItsFields : Prop :=
  ∀ (pitch roll yaw : BitVec 16) (surplus f : List Byte) (s : State),
    surplus.length ≤ 54 →
    f = mkFrame 0x1E#8 (be16 pitch ++ be16 roll ++ be16 yaw ++ surplus) →
    s.frm = some f → s.evt = none →
    exec (.attitude pitch roll yaw surplus) s =
      .next { s with
        evt := some { ev := .attitude pitch.toInt roll.toInt yaw.toInt, frame := f }
        frm := none
        acc := crc8 (slice f 2 (f.length - 1))
        cleared := false
        dropCount := none }

/-- FLIGHT_MODE completes on its frame, whatever its payload and the configuration, with the text that
`FlightModeTextTrims` describes (43_payload_decode.md R128). ACC and the pulses are the model's: log 6, log 4. -/
def Obligations.FlightModeFrameGivesItsText : Prop :=
  ∀ (payload f : List Byte) (s : State),
    payload.length ≤ 60 →
    f = mkFrame 0x21#8 payload →
    s.frm = some f → s.evt = none →
    exec (.flightMode payload) s =
      .next { s with
        evt := some { ev := .flightMode (flightModeText s.cfg payload), frame := f }
        frm := none
        acc := crc8 (slice f 2 (f.length - 1))
        cleared := false
        dropCount := none }

/-- UNKNOWN completes on every checksum-valid frame of an unrecognised type, with that exact payload (42_dispatch.md
R114). ACC and the pulses are the model's: log 6, log 4. -/
def Obligations.UnknownFrameKeepsItsPayload : Prop :=
  ∀ (typ : Byte) (payload f : List Byte) (s : State),
    typ ≠ 0x02#8 → typ ≠ 0x08#8 → typ ≠ 0x14#8 → typ ≠ 0x1E#8 → typ ≠ 0x21#8 →
    payload.length ≤ 60 →
    f = mkFrame typ payload →
    s.frm = some f → s.evt = none →
    exec (.unknown typ payload) s =
      .next { s with
        evt := some { ev := .unknownPacket typ payload, frame := f }
        frm := none
        acc := crc8 (slice f 2 (f.length - 1))
        cleared := false
        dropCount := none }

/-- CHECKSUM_MISMATCH completes on every candidate frame whose checksum fails, whatever its type and length, with the
raw frame (42_dispatch.md R112). ACC and the pulses are the model's: log 6, log 4. -/
def Obligations.BadChecksumKeepsTheFrame : Prop :=
  ∀ (f : List Byte) (s : State),
    frameOk f = true → crc8 (slice f 2 (f.length - 1)) ≠ byteAt f (f.length - 1) →
    s.frm = some f → s.evt = none →
    exec (.checksumMismatch f) s =
      .next { s with
        evt := some { ev := .checksumMismatch f, frame := f }
        frm := none
        acc := crc8 (slice f 2 (f.length - 1))
        cleared := false
        dropCount := none }

/-- MALFORMED_PAYLOAD completes on every checksum-valid frame of a recognised type whose payload is too short, with
the type only (42_dispatch.md R113, R115). ACC and the pulses are the model's: log 6, log 4. -/
def Obligations.ShortPayloadGivesItsType : Prop :=
  ∀ (typ : Byte) (payload f : List Byte) (s : State),
    (typ = 0x02#8 ∧ payload.length < 15) ∨ (typ = 0x08#8 ∧ payload.length < 2) ∨
      (typ = 0x14#8 ∧ payload.length < 4) ∨ (typ = 0x1E#8 ∧ payload.length < 6) →
    f = mkFrame typ payload →
    s.frm = some f → s.evt = none →
    exec (.malformedPayload typ payload) s =
      .next { s with
        evt := some { ev := .malformedPayload typ, frame := f }
        frm := none
        acc := crc8 (slice f 2 (f.length - 1))
        cleared := false
        dropCount := none }

/-- The table of outcomes by checksum, type and payload length (42_dispatch.md R118), with the fields of each decode
(43_payload_decode.md R120, R122, R124, R126, R128). -/
def Obligations.OutcomeTableIsComplete : Prop :=
  ∀ (cfg : Config) (f : List Byte), frameOk f = true →
    (crcOk f = false → decodeEvent cfg f = some (.checksumMismatch f)) ∧
    (crcOk f = true →
      (frameType f = 0x02#8 → (framePayload f).length ≤ 14 →
        decodeEvent cfg f = some (.malformedPayload 0x02#8)) ∧
      (frameType f = 0x02#8 → 15 ≤ (framePayload f).length →
        decodeEvent cfg f = some (.gps (u32be (framePayload f) 0).toInt (u32be (framePayload f) 4).toInt
          (u16be (framePayload f) 8).toNat (u16be (framePayload f) 12).toNat (byteAt (framePayload f) 14).toNat)) ∧
      (frameType f = 0x08#8 → (framePayload f).length ≤ 1 →
        decodeEvent cfg f = some (.malformedPayload 0x08#8)) ∧
      (frameType f = 0x08#8 → 2 ≤ (framePayload f).length →
        decodeEvent cfg f = some (.battery (u16be (framePayload f) 0).toNat)) ∧
      (frameType f = 0x14#8 → (framePayload f).length ≤ 3 →
        decodeEvent cfg f = some (.malformedPayload 0x14#8)) ∧
      (frameType f = 0x14#8 → 4 ≤ (framePayload f).length →
        decodeEvent cfg f = some (.linkStatistics (byteAt (framePayload f) 0).toNat
          (byteAt (framePayload f) 1).toNat (byteAt (framePayload f) 2).toNat (byteAt (framePayload f) 3).toInt)) ∧
      (frameType f = 0x1E#8 → (framePayload f).length ≤ 5 →
        decodeEvent cfg f = some (.malformedPayload 0x1E#8)) ∧
      (frameType f = 0x1E#8 → 6 ≤ (framePayload f).length →
        decodeEvent cfg f = some (.attitude (u16be (framePayload f) 0).toInt (u16be (framePayload f) 2).toInt
          (u16be (framePayload f) 4).toInt)) ∧
      (frameType f = 0x21#8 →
        decodeEvent cfg f = some (.flightMode (flightModeText cfg (framePayload f)))) ∧
      (frameType f ≠ 0x02#8 → frameType f ≠ 0x08#8 → frameType f ≠ 0x14#8 → frameType f ≠ 0x1E#8 →
        frameType f ≠ 0x21#8 → decodeEvent cfg f = some (.unknownPacket (frameType f) (framePayload f)))) ∧
    (framePayload f).length ≤ 60

/-- The range of every field of every event, raw and derived (43_payload_decode.md R131). -/
def Obligations.EventFieldsKeepTheirRanges : Prop :=
  ∀ (cfg : Config) (f : List Byte) (e : Event), decodeEvent cfg f = some e →
    match e with
    | .gps lat lon groundspeed altitude satellites =>
      -2147483648 ≤ lat ∧ lat ≤ 2147483647 ∧ -2147483648 ≤ lon ∧ lon ≤ 2147483647 ∧ groundspeed ≤ 65535 ∧
        altitude ≤ 65535 ∧ satellites ≤ 255 ∧
        ∃ a b v m, derived e = some (.gps a b v m satellites) ∧
          (-2147483648 / 10000000 : Rat) ≤ a ∧ a ≤ 2147483647 / 10000000 ∧
          (-2147483648 / 10000000 : Rat) ≤ b ∧ b ≤ 2147483647 / 10000000 ∧
          0 ≤ v ∧ v ≤ 65535 / 36 ∧ -1000 ≤ m ∧ m ≤ 64535
    | .battery voltage =>
      voltage ≤ 65535 ∧ ∃ v, derived e = some (.battery v) ∧ 0 ≤ v ∧ v ≤ 65535 / 10
    | .linkStatistics rssi1 rssi2 linkQuality snr =>
      rssi1 ≤ 255 ∧ rssi2 ≤ 255 ∧ linkQuality ≤ 255 ∧ -128 ≤ snr ∧ snr ≤ 127
    | .attitude pitch roll yaw =>
      -32768 ≤ pitch ∧ pitch ≤ 32767 ∧ -32768 ≤ roll ∧ roll ≤ 32767 ∧ -32768 ≤ yaw ∧ yaw ≤ 32767 ∧
        ∃ a b c, derived e = some (.attitude a b c) ∧
          (-32768 / 10000 : Rat) ≤ a ∧ a ≤ 32767 / 10000 ∧ (-32768 / 10000 : Rat) ≤ b ∧ b ≤ 32767 / 10000 ∧
          (-32768 / 10000 : Rat) ≤ c ∧ c ≤ 32767 / 10000
    | .flightMode text => text.length ≤ 60
    | .unknownPacket _ payload => payload.length ≤ 60
    | .checksumMismatch frame => 4 ≤ frame.length ∧ frame.length ≤ 64
    | .malformedPayload _ => True

/-- What DECODE and its rows leave alone: BUF, PH, the configuration, the environment and every history; and the event
depends on the frame and the configuration alone (20_memory.md R57, 42_dispatch.md R110). -/
def Obligations.DecodeLeavesTheBuffer : Prop :=
  (∀ (i : Instr) (s t : State), i.isFrameRow = true ∨ i = .decode → exec i s = .next t →
    t.cfg = s.cfg ∧ t.ph = s.ph ∧ t.inp = s.inp ∧ t.sched = s.sched ∧ t.tick = s.tick ∧ t.pos = s.pos ∧
    t.inHist = s.inHist ∧ t.outHist = s.outHist ∧ t.frameHist = s.frameHist ∧ t.dropTotal = s.dropTotal ∧
    t.statusHist = s.statusHist ∧ t.lastSync = s.lastSync ∧ ∀ a, readBuf t a = readBuf s a) ∧
  ∀ s s' t t' : State, s.frm = s'.frm → s.frm ≠ none → s.cfg = s'.cfg → s.evt = none → s'.evt = none →
    exec .decode s = .next t → exec .decode s' = .next t' → t.evt = t'.evt ∧ t.evt ≠ none

/-- The Flight Mode text under every configuration: a prefix of the payload, got by the fixed trim, the cut at the first
`0x00` and the strip of trailing control bytes, in this order (43_payload_decode.md R128). -/
def Obligations.FlightModeTextTrims : Prop :=
  ∀ (cfg : Config) (p : List Byte),
    (∃ m, flightModeText cfg p = p.take m) ∧
    ∃ q1 q2 : List Byte,
      q1 = p.take (p.length - cfg.fmFixedTrim.val) ∧
      (cfg.fmNulCut = false → q2 = q1) ∧
      (cfg.fmNulCut = true →
        (∀ b ∈ q2, b ≠ 0x00#8) ∧ ∃ tail, q1 = q2 ++ tail ∧ (tail = [] ∨ tail[0]? = some 0x00#8)) ∧
      (cfg.fmCtrlStrip = false → flightModeText cfg p = q2) ∧
      (cfg.fmCtrlStrip = true →
        (∃ tail, q2 = flightModeText cfg p ++ tail ∧ ∀ c ∈ tail, c.toNat < 0x20 ∨ c = 0x7F#8) ∧
          ∀ c, (flightModeText cfg p).getLast? = some c → 0x20 ≤ c.toNat ∧ c ≠ 0x7F#8)

/-! ## The event output -/

/-- TAKE hands the event to the sink and frees EVT, and changes nothing else; with no event there is nothing to take
(44_event_output.md R142). The pulses are held by log 4. -/
def Obligations.TakeHandsOverTheEvent : Prop :=
  (∀ (s : State) (r : EvtReg), s.evt = some r →
    exec .take s =
      .next { s with
        evt := none
        outHist := s.outHist ++ [r.ev]
        cleared := false
        dropCount := none }) ∧
  ∀ s : State, s.evt = none → exec .take s = .next { s with cleared := false, dropCount := none }

/-- The event port shows the frame EVT came from and every field of its event, so that the event is recovered from the
port, and it shows nothing while EVT is empty or `rst` is high, when the output evt_valid is 0 (44_event_output.md R141,
R144; 70_reset_and_hazards.md R171). That a field without a value is none is the model's choice (log 19, log 14). The
premise is the invariant of `StepKeepsTheRegisters`. -/
def Obligations.PortCarriesTheEvent : Prop :=
  (∀ (s : State) (r : EvtReg), evtOk s = true → s.evt = some r →
    ∃ p, eventPort false s = some p ∧ portEvent p = some r.ev ∧ p.kind = eventKind r.ev ∧ p.frame = r.frame ∧
      p.len.toNat = r.frame.length ∧ p.typ = byteAt r.frame 2 ∧ p.plen.toNat = r.frame.length - 4) ∧
  ∀ (s : State) (rst : Bool), s.evt = none ∨ rst = true → eventPort rst s = none

/-- The kind codes (44_event_output.md R143): all eight codes are used, and `evt_kind[2:1] = 3` picks out the two
diagnostics. -/
def Obligations.KindCodesAreTheSpecs : Prop :=
  (∀ t p, eventKind (.unknownPacket t p) = 0) ∧
  (∀ a b c d e, eventKind (.gps a b c d e) = 1) ∧
  (∀ v, eventKind (.battery v) = 2) ∧
  (∀ a b c d, eventKind (.linkStatistics a b c d) = 3) ∧
  (∀ a b c, eventKind (.attitude a b c) = 4) ∧
  (∀ t, eventKind (.flightMode t) = 5) ∧
  (∀ f, eventKind (.checksumMismatch f) = 6) ∧
  (∀ t, eventKind (.malformedPayload t) = 7) ∧
  (∀ k : BitVec 3, ∃ e, eventKind e = k) ∧
  ∀ e, (eventKind e).extractLsb' 1 2 = 3#2 ↔
    (∃ f, e = .checksumMismatch f) ∨ ∃ t, e = .malformedPayload t

/-- The pulses belong to the step just taken: `cleared` to a CLEAR, `drop_count` to a CLEAR, TRIM or DROP1, whose count
is the bytes that left BUF (10_state.md R28, 44_event_output.md R145; log 4 for where they are held). -/
def Obligations.PulsesBelongToTheStep : Prop :=
  ∀ (i : Instr) (s t : State), exec i s = .next t →
    (t.cleared = true → i = .clear ∧ t.dropCount = some s.buf.length ∧ t.buf = []) ∧
    ∀ n, t.dropCount = some n →
      (i = .clear ∨ (∃ k, i = .trim k) ∨ ∃ l, i = .drop1 l) ∧
        n + t.buf.length = s.buf.length ∧ t.dropTotal = s.dropTotal + n ∧ t.pos = s.pos + n

/-- The derived fields are exact (43_payload_decode.md R121, R123, R125, R127), with the examples of those rules. -/
def Obligations.DerivedFieldsAreExact : Prop :=
  (∀ (lat lon : Int) (groundspeed altitude satellites : Nat),
    ∃ (a b v : Rat) (m : Int),
      derived (.gps lat lon groundspeed altitude satellites) = some (.gps a b v m satellites) ∧
      a * 10000000 = lat ∧ b * 10000000 = lon ∧ v * 36 = groundspeed ∧ m + 1000 = altitude) ∧
  (∀ voltage : Nat, ∃ v : Rat, derived (.battery voltage) = some (.battery v) ∧ v * 10 = voltage) ∧
  (∀ (a b c : Nat) (d : Int), derived (.linkStatistics a b c d) = some (.linkStatistics a b c d)) ∧
  (∀ pitch roll yaw : Int,
    ∃ a b c : Rat, derived (.attitude pitch roll yaw) = some (.attitude a b c) ∧
      a * 10000 = pitch ∧ b * 10000 = roll ∧ c * 10000 = yaw) ∧
  derived (.gps 377749000 (-1224194000) 360 2000 12) = some (.gps (377749 / 10000) (-1224194 / 10000) 10 1000 12) ∧
  derived (.battery 240) = some (.battery 24) ∧
  derived (.attitude 1000 (-2000) 31416) = some (.attitude (1 / 10) (-2 / 10) (31416 / 10000))

/-! ## RESET -/

/-- RESET completes in every state, with the values of 10_state.md R34 and the ghost state emptied, and with no
output; the straps and what the environment offers stay (70_reset_and_hazards.md R170, R171). The pulses are held by
log 4, `lastSync` by log 24. -/
def Obligations.ResetRestartsTheBlock : Prop :=
  ∀ s : State,
    exec .reset s =
      .next { s with
        buf := []
        ph := .entry
        frm := none
        evt := none
        acc := 0x00#8
        cleared := false
        dropCount := none
        pos := 0
        inHist := []
        outHist := []
        frameHist := []
        dropTotal := 0
        statusHist := []
        lastSync := none }

/-- Right after reset BUF is empty, PH is ENTRY, nothing is valid, ACC is zero, `need_more` and `in_ready` are 1, and no
SYNC, DECODE or TAKE step is enabled; FEED is (10_state.md R34). -/
def Obligations.ResetStateIsEmpty : Prop :=
  State.reset.buf = [] ∧ State.reset.ph = .entry ∧ frmValid State.reset = false ∧ evtValid State.reset = false ∧
  State.reset.acc = 0x00#8 ∧ State.reset.pos = 0 ∧ State.reset.inHist = [] ∧ State.reset.outHist = [] ∧
  State.reset.dropTotal = 0 ∧
  needMore State.reset = true ∧ inReady State.reset = true ∧
  enabled .sync State.reset = false ∧ enabled .dec State.reset = false ∧ enabled .sink State.reset = false ∧
  ∀ b : Byte, ∃ t, exec (.feed b) State.reset = .next t ∧ t.buf = [b]

/-! ## The machine -/

/-- A step runs the decoded instruction: the head of the schedule names the agent, and its turn runs the FEED of the
oldest byte on offer (which leaves the source), the SYNC step that (PH, BUF, frm_valid) selects, the row that FRM
decodes to, TAKE, or RESET; an agent with no enabled step changes nothing; and with an empty schedule the next agent
is one with an enabled step if the block has one, and never the host (00_scope.md R12; log 1). The pulses are held by
log 4. -/
def Obligations.StepRunsTheDecodedInstruction : Prop :=
  ∀ (s : State) (rest : List Agent),
    (s.sched = .src :: rest → ∀ b bs, s.inp = b :: bs → inReady s = true →
      step s = exec (.feed b) { s with sched := rest, inp := bs }) ∧
    (s.sched = .sync :: rest → ∀ i, decodeSync s.ph s.buf s.frm.isSome = .step i →
      step s = exec i { s with sched := rest }) ∧
    (s.sched = .dec :: rest → ∀ f i, s.frm = some f → s.evt = none → decodeFrame f = .instr i →
      step s = exec i { s with sched := rest }) ∧
    (s.sched = .sink :: rest → s.evt ≠ none → step s = exec .take { s with sched := rest }) ∧
    (s.sched = .host :: rest → step s = exec .reset { s with sched := rest }) ∧
    (∀ a, s.sched = a :: rest → enabled a s = false →
      step s = .next { s with sched := rest, cleared := false, dropCount := none }) ∧
    (s.sched = [] →
      step s = step { s with sched := [nextAgent s], tick := s.tick + 1 } ∧ nextAgent s ≠ .host ∧
      (enabled .sync s = true ∨ enabled .dec s = true → enabled (nextAgent s) s = true))

/-- The register invariant holds at reset, and so do the history invariants (10_state.md R33). -/
def Obligations.ResetKeepsEveryInvariant : Prop :=
  regsOk State.reset = true ∧ streamOk State.reset ∧ framesOk State.reset ∧ settledOk State.reset ∧
    eventsOk State.reset

/-- Every step keeps (I1), (I2), (I3), (I4) of 10_state.md R33, the content of EVT, and the configuration (log 24 for the
last SYNC step, of which (I4) speaks). -/
def Obligations.StepKeepsTheRegisters : Prop :=
  ∀ s t : State, regsOk s = true → step s = .next t → regsOk t = true ∧ t.cfg = s.cfg

/-- Every step keeps (I5): no byte is lost, duplicated or reordered, and every frame extracted is the stretch of the fed
bytes at its position (10_state.md R33, R35, R36); and what has been extracted is never revised by later bytes
(40_frame_assembler.md R95). -/
def Obligations.StepKeepsTheStream : Prop :=
  ∀ s t : State, streamOk s → framesOk s → settledOk s → step s = .next t →
    streamOk t ∧ framesOk t ∧ settledOk t

/-- Every step keeps: one candidate frame gives exactly one event, in stream order (20_memory.md R51 O3, O4;
44_event_output.md R146). -/
def Obligations.StepKeepsEventsInOrder : Prop :=
  ∀ s t : State, eventsOk s → step s = .next t → eventsOk t

/-- The frames extracted, and once the pipeline is drained the events, depend only on the bytes fed: not on the order of
the steps, the chunks or BUF_CAP (40_frame_assembler.md R95). The premises are the invariants of `StepKeepsTheStream`
and `StepKeepsEventsInOrder`. -/
def Obligations.SameBytesSameFrames : Prop :=
  (∀ s : State, streamOk s → settledOk s → syncChoice s = .hold → s.frameHist = streamFrames s.inHist) ∧
  ∀ s t : State, streamOk s → settledOk s → eventsOk s → streamOk t → settledOk t → eventsOk t →
    syncChoice s = .hold → syncChoice t = .hold → s.inHist = t.inHist →
    s.cfg.fmFixedTrim = t.cfg.fmFixedTrim → s.cfg.fmNulCut = t.cfg.fmNulCut →
    s.cfg.fmCtrlStrip = t.cfg.fmCtrlStrip →
    s.frm = none → t.frm = none → s.evt = none → t.evt = none →
    s.frameHist = t.frameHist ∧ s.outHist = t.outHist

/-- Resynchronisation, in the form the algorithm satisfies (90_conflicts.md C1): one frame between two stretches of noise
in which no sync byte is followed by a plausible length is the one frame `streamFrames` finds, at its true position.
`SameBytesSameFrames` says that FRAME_HIST is what `streamFrames` finds. -/
def Obligations.HarmlessNoiseYieldsTheFrame : Prop :=
  ∀ noise1 f noise2 : List Byte, frameOk f = true → harmlessBefore 0xC8#8 noise1 = true →
    harmlessBefore 0xC8#8 noise2 = true →
    streamFrames (noise1 ++ f ++ noise2) = [(noise1.length, f)]

/-- With no schedule left, the block's own agents go on until neither has an enabled step, within the work left, whatever
the free choices are (70_reset_and_hazards.md R178 F1 and F2, R184; it rests on the model's choice of log 1 and
log 18). -/
def Obligations.BlockSettlesByItself : Prop :=
  ∀ s : State, s.sched = [] → frmOk s = true →
    ∃ n ≤ workLeft s, ∃ t : State, Host.Core.run core n s = .next t ∧
      enabled .sync t = false ∧ enabled .dec t = false

/-- Nothing stops the block: a step answers a next state whenever FRM keeps (I2), and the only refusal is of a frame that
breaks it (20_memory.md R45, 42_dispatch.md R117, 60_exceptions.md R150; log 12). -/
def Obligations.StepAlwaysAnswers : Prop :=
  (∀ s : State, frmOk s = true → ∃ t, step s = .next t) ∧
  ∀ (s : State) (r : Refusal), step s = .refused r → r = .brokenFrame ∧ frmOk s = false

/-- In a quiescent state no agent but the host has an enabled step, and BUF holds at most 63 bytes
(70_reset_and_hazards.md R177). -/
def Obligations.QuiescentWaitsForInput : Prop :=
  ∀ s : State, quiescent s = true →
    enabled .src s = false ∧ enabled .sync s = false ∧ enabled .dec s = false ∧ enabled .sink s = false ∧
      s.buf.length ≤ 63
end

