-- ==== Sys2Proof/Laws/Operands.lean ====
section
/-! SUPPORT. The small lemmas of the operand forms: byte sequences, the sync search, and the parts of a built frame. -/

namespace Sys2Proof.Machine

@[simp] theorem byteAt_cons_zero (b : Byte) (bs : List Byte) : byteAt (b :: bs) 0 = b := rfl

@[simp] theorem byteAt_cons_succ (b : Byte) (bs : List Byte) (o : Nat) : byteAt (b :: bs) (o + 1) = byteAt bs o := rfl

theorem getElem?_eq_some_byteAt {s : List Byte} {o : Nat} (h : o < s.length) : s[o]? = some (byteAt s o) := by
  simp [byteAt, h]

theorem byteAt_eq_of_getElem? {s : List Byte} {o : Nat} {b : Byte} (h : s[o]? = some b) : byteAt s o = b := by
  simp [byteAt, h]

theorem badLength_iff (l : Byte) : badLength l = true ↔ l.toNat < 2 ∨ 62 < l.toNat := by simp [badLength]

theorem badLength_eq_false_iff (l : Byte) : badLength l = false ↔ 2 ≤ l.toNat ∧ l.toNat ≤ 62 := by
  simp [badLength]; omega

theorem minPayload_le (t : Byte) : minPayload t ≤ 15 := by
  unfold minPayload; split_ifs <;> omega

theorem findSync_eq_none_iff (s : List Byte) : findSync s = none ↔ ∀ b ∈ s, b ≠ syncByte := by
  induction s with
  | nil => simp [findSync]
  | cons b bs ih => by_cases h : b = syncByte <;> simp [findSync, h, ih]

/-- Everything a successful sync search says: the byte there is the sync byte, and no earlier byte is. -/
theorem findSync_eq_some_iff (s : List Byte) (k : Nat) :
    findSync s = some k ↔ s[k]? = some syncByte ∧ ∀ j < k, s[j]? ≠ some syncByte := by
  induction s generalizing k with
  | nil => simp [findSync]
  | cons b bs ih =>
    by_cases h : b = syncByte
    · cases k with
      | zero => simp [findSync, h]
      | succ k =>
        simp only [findSync, h, if_true, List.getElem?_cons_succ]
        constructor
        · intro h'; cases h'
        · rintro ⟨-, h'⟩; exact absurd (by simp) (h' 0 (Nat.succ_pos k))
    · cases k with
      | zero => simp [findSync, h]
      | succ k =>
        simp only [findSync, h, if_false, Option.map_eq_some_iff, Nat.add_right_cancel_iff, exists_eq_right,
          List.getElem?_cons_succ, ih]
        refine and_congr_right fun _ => ⟨fun hj j hlt => ?_, fun hj j hlt => ?_⟩
        · cases j with
          | zero => simpa using h
          | succ j => simpa using hj j (by omega)
        · simpa using hj (j + 1) (by omega)

theorem findSync_lt {s : List Byte} {k : Nat} (h : findSync s = some k) : k < s.length := by
  have := ((findSync_eq_some_iff s k).mp h).1
  rw [List.getElem?_eq_some_iff] at this
  exact this.1

@[simp] theorem slice_length (s : List Byte) (a b : Nat) : (slice s a b).length = min (b - a) (s.length - a) := by
  simp [slice]

@[simp] theorem be16_length (x : BitVec 16) : (be16 x).length = 2 := rfl

@[simp] theorem be32_length (x : BitVec 32) : (be32 x).length = 4 := rfl

@[simp] theorem gpsPayload_length (lat lon : BitVec 32) (groundspeed heading altitude : BitVec 16) (satellites : Byte)
    (surplus : List Byte) :
    (gpsPayload lat lon groundspeed heading altitude satellites surplus).length = 15 + surplus.length := by
  simp only [gpsPayload, List.length_append, be16_length, be32_length, List.length_singleton]

@[simp] theorem mkFrame_length (t : Byte) (p : List Byte) : (mkFrame t p).length = p.length + 4 := by
  simp [mkFrame]

/-- The two bytes of a `u16` are read back wherever they stand. -/
theorem u16be_append_be16 (x : BitVec 16) (a l : List Byte) : u16be (a ++ (be16 x ++ l)) a.length = x := by
  apply BitVec.eq_of_toNat_eq
  have := x.isLt
  simp [u16be, be16, byteAt]; omega

/-- The four bytes of a 32-bit pattern are read back wherever they stand. -/
theorem u32be_append_be32 (x : BitVec 32) (a l : List Byte) : u32be (a ++ (be32 x ++ l)) a.length = x := by
  apply BitVec.eq_of_toNat_eq
  have := x.isLt
  simp [u32be, be32, byteAt]; omega

theorem be16_u16be (p : List Byte) (o : Nat) : be16 (u16be p o) = [byteAt p o, byteAt p (o + 1)] := by
  have h0 := (byteAt p o).isLt
  have h1 := (byteAt p (o + 1)).isLt
  simp [be16, u16be]
  constructor <;> apply BitVec.eq_of_toNat_eq <;> simp <;> omega

theorem be32_u32be (p : List Byte) (o : Nat) :
    be32 (u32be p o) = [byteAt p o, byteAt p (o + 1), byteAt p (o + 2), byteAt p (o + 3)] := by
  have h0 := (byteAt p o).isLt
  have h1 := (byteAt p (o + 1)).isLt
  have h2 := (byteAt p (o + 2)).isLt
  have h3 := (byteAt p (o + 3)).isLt
  simp [be32, u32be]
  refine ⟨?_, ?_, ?_, ?_⟩ <;> apply BitVec.eq_of_toNat_eq <;> simp <;> omega

theorem u16be_cons_succ (a : Byte) (l : List Byte) (o : Nat) : u16be (a :: l) (o + 1) = u16be l o := rfl

theorem u32be_cons_succ (a : Byte) (l : List Byte) (o : Nat) : u32be (a :: l) (o + 1) = u32be l o := rfl

/-- `sext` is the two's-complement value of the pattern. -/
theorem sext_eq_toInt {w : Nat} (hw : 0 < w) (v : BitVec w) : sext v = v.toInt := by
  have h2 : 2 ^ w = 2 * 2 ^ (w - 1) := by
    obtain ⟨k, rfl⟩ : ∃ k, w = k + 1 := ⟨w - 1, by omega⟩
    simp [Nat.pow_succ, Nat.mul_comm]
  unfold sext
  rw [BitVec.toInt_eq_toNat_cond]
  by_cases h : v.toNat < 2 ^ (w - 1)
  · rw [if_pos h, if_pos (by omega)]
  · rw [if_neg h, if_neg (by omega)]; push_cast; rfl

end Sys2Proof.Machine
end

