-- ==== Sys2Proof/Laws/Checksum.lean ====
section
/-! SUPPORT. The checksum, one byte and a sequence at a time. -/

namespace Sys2Proof.Machine

@[simp] theorem crc8_nil : crc8 [] = 0#8 := rfl

theorem crc8_append (s t : List Byte) : crc8 (s ++ t) = t.foldl crc8Byte (crc8 s) := by
  simp [crc8, List.foldl_append]

/-- The checksum test as an equation. -/
theorem crcOk_iff (f : List Byte) :
    crcOk f = true ↔ crc8 (slice f 2 (f.length - 1)) = byteAt f (f.length - 1) :=
  decide_eq_true_iff

theorem crcOk_eq_false_iff (f : List Byte) :
    crcOk f = false ↔ crc8 (slice f 2 (f.length - 1)) ≠ byteAt f (f.length - 1) :=
  decide_eq_false_iff_not

/-- The shift step undone: bit 0 tells whether the polynomial was added, since the polynomial has a constant term. -/
def crcUnshift (c : Byte) : Byte := if c.getLsbD 0 then ((c ^^^ crcPoly) >>> 1) ||| 0x80#8 else c >>> 1

set_option maxRecDepth 4000 in
theorem crcUnshift_crcShift (a : Byte) : crcUnshift (crcShift a) = a := by
  revert a
  decide

/-- A shift step loses nothing. -/
theorem crcShift_injective : Function.Injective crcShift := Function.LeftInverse.injective crcUnshift_crcShift

theorem crcShifts_injective (n : Nat) : Function.Injective (Nat.repeat crcShift n) := by
  induction n with
  | zero => exact fun _ _ h => h
  | succ n ih => exact fun a b h => ih (crcShift_injective h)

theorem crc8Byte_left_injective (b : Byte) : Function.Injective (fun acc => crc8Byte acc b) := by
  intro acc acc' h
  have hx : acc ^^^ b = acc' ^^^ b := by
    apply crcShifts_injective 8
    simpa only [crc8Byte] using h
  simpa [BitVec.xor_assoc] using congrArg (· ^^^ b) hx

theorem crc8Byte_right_injective (acc : Byte) : Function.Injective (crc8Byte acc) := by
  intro b b' h
  have hx : acc ^^^ b = acc ^^^ b' := by
    apply crcShifts_injective 8
    simpa only [crc8Byte] using h
  simpa [← BitVec.xor_assoc] using congrArg (acc ^^^ ·) hx

/-- Two different accumulators stay different over any bytes. -/
theorem foldl_crc8Byte_injective (s : List Byte) : Function.Injective (fun acc => s.foldl crc8Byte acc) := by
  induction s with
  | nil => exact fun _ _ h => h
  | cons b bs ih => exact fun a c h => crc8Byte_left_injective b (ih h)

end Sys2Proof.Machine
end

