-- ==== Sys2Proof/Laws/Decode.lean ====
section
/-! SUPPORT. What the frame decoder and the step selection can answer, said once. -/

namespace Sys2Proof.Machine

/-- Everything the frame decoder can answer as an instruction. -/
theorem decodeFrame_eq_instr_iff (f : List Byte) (i : Instr) :
    decodeFrame f = .instr i ↔
      frameOk f = true ∧
        i = if crcOk f = true then decodeBody (frameType f) (framePayload f) else .checksumMismatch f := by
  unfold decodeFrame frameOk
  split_ifs with h1 h2 h3 h4 h5 <;> simp_all <;> first | omega | exact eq_comm

/-- A frame that breaks the length invariants is rejected, and no other. -/
theorem decodeFrame_reject_iff (f : List Byte) : (∃ r, decodeFrame f = .reject r) ↔ frameOk f = false := by
  cases h : frameOk f with
  | true =>
    have := (decodeFrame_eq_instr_iff f _).mpr ⟨h, rfl⟩
    simp [this]
  | false =>
    cases hd : decodeFrame f with
    | instr i => rw [decodeFrame_eq_instr_iff] at hd; simp [h] at hd
    | reject r => simp

/-- The length invariants as facts. -/
theorem frameOk_iff (f : List Byte) :
    frameOk f = true ↔
      4 ≤ f.length ∧ f.length ≤ 64 ∧ byteAt f 0 = syncByte ∧ totalLength (byteAt f 1) = f.length := by
  simp [frameOk, and_assoc]

/-- A frame has at most 60 bytes of payload. -/
theorem framePayload_length {f : List Byte} (h : frameOk f = true) : (framePayload f).length = f.length - 4 := by
  rw [frameOk_iff] at h
  simp [framePayload]; omega

end Sys2Proof.Machine
end

