-- ==== Sys2Proof/Laws/State.lean ====
section
/-! SUPPORT. Every field after every state update of Machine/Ops.lean, so that no proof unfolds an update. -/

namespace Sys2Proof.Machine.State

/-! idle -/

@[simp] theorem idle_cfg (s : State) : (s.idle).cfg = s.cfg := rfl
@[simp] theorem idle_buf (s : State) : (s.idle).buf = s.buf := rfl
@[simp] theorem idle_ph (s : State) : (s.idle).ph = s.ph := rfl
@[simp] theorem idle_frm (s : State) : (s.idle).frm = s.frm := rfl
@[simp] theorem idle_evt (s : State) : (s.idle).evt = s.evt := rfl
@[simp] theorem idle_acc (s : State) : (s.idle).acc = s.acc := rfl
@[simp] theorem idle_cleared (s : State) : (s.idle).cleared = false := rfl
@[simp] theorem idle_dropCount (s : State) : (s.idle).dropCount = none := rfl
@[simp] theorem idle_inp (s : State) : (s.idle).inp = s.inp := rfl
@[simp] theorem idle_sched (s : State) : (s.idle).sched = s.sched := rfl
@[simp] theorem idle_tick (s : State) : (s.idle).tick = s.tick := rfl
@[simp] theorem idle_pos (s : State) : (s.idle).pos = s.pos := rfl
@[simp] theorem idle_inHist (s : State) : (s.idle).inHist = s.inHist := rfl
@[simp] theorem idle_outHist (s : State) : (s.idle).outHist = s.outHist := rfl
@[simp] theorem idle_frameHist (s : State) : (s.idle).frameHist = s.frameHist := rfl
@[simp] theorem idle_dropTotal (s : State) : (s.idle).dropTotal = s.dropTotal := rfl
@[simp] theorem idle_statusHist (s : State) : (s.idle).statusHist = s.statusHist := rfl
@[simp] theorem idle_lastSync (s : State) : (s.idle).lastSync = s.lastSync := rfl

/-! append -/

@[simp] theorem append_cfg (s : State) (b : Byte) : (s.append b).cfg = s.cfg := rfl
@[simp] theorem append_buf (s : State) (b : Byte) : (s.append b).buf = s.buf ++ [b] := rfl
@[simp] theorem append_ph (s : State) (b : Byte) : (s.append b).ph = s.ph := rfl
@[simp] theorem append_frm (s : State) (b : Byte) : (s.append b).frm = s.frm := rfl
@[simp] theorem append_evt (s : State) (b : Byte) : (s.append b).evt = s.evt := rfl
@[simp] theorem append_acc (s : State) (b : Byte) : (s.append b).acc = s.acc := rfl
@[simp] theorem append_cleared (s : State) (b : Byte) : (s.append b).cleared = false := rfl
@[simp] theorem append_dropCount (s : State) (b : Byte) : (s.append b).dropCount = none := rfl
@[simp] theorem append_inp (s : State) (b : Byte) : (s.append b).inp = s.inp := rfl
@[simp] theorem append_sched (s : State) (b : Byte) : (s.append b).sched = s.sched := rfl
@[simp] theorem append_tick (s : State) (b : Byte) : (s.append b).tick = s.tick := rfl
@[simp] theorem append_pos (s : State) (b : Byte) : (s.append b).pos = s.pos := rfl
@[simp] theorem append_inHist (s : State) (b : Byte) : (s.append b).inHist = s.inHist ++ [b] := rfl
@[simp] theorem append_outHist (s : State) (b : Byte) : (s.append b).outHist = s.outHist := rfl
@[simp] theorem append_frameHist (s : State) (b : Byte) : (s.append b).frameHist = s.frameHist := rfl
@[simp] theorem append_dropTotal (s : State) (b : Byte) : (s.append b).dropTotal = s.dropTotal := rfl
@[simp] theorem append_statusHist (s : State) (b : Byte) : (s.append b).statusHist = s.statusHist := rfl
@[simp] theorem append_lastSync (s : State) (b : Byte) : (s.append b).lastSync = s.lastSync := rfl

/-! removeFront -/

@[simp] theorem removeFront_cfg (s : State) (n : Nat) : (s.removeFront n).cfg = s.cfg := rfl
@[simp] theorem removeFront_buf (s : State) (n : Nat) : (s.removeFront n).buf = s.buf.drop n := rfl
@[simp] theorem removeFront_ph (s : State) (n : Nat) : (s.removeFront n).ph = s.ph := rfl
@[simp] theorem removeFront_frm (s : State) (n : Nat) : (s.removeFront n).frm = s.frm := rfl
@[simp] theorem removeFront_evt (s : State) (n : Nat) : (s.removeFront n).evt = s.evt := rfl
@[simp] theorem removeFront_acc (s : State) (n : Nat) : (s.removeFront n).acc = s.acc := rfl
@[simp] theorem removeFront_cleared (s : State) (n : Nat) : (s.removeFront n).cleared = false := rfl
@[simp] theorem removeFront_dropCount (s : State) (n : Nat) : (s.removeFront n).dropCount = none := rfl
@[simp] theorem removeFront_inp (s : State) (n : Nat) : (s.removeFront n).inp = s.inp := rfl
@[simp] theorem removeFront_sched (s : State) (n : Nat) : (s.removeFront n).sched = s.sched := rfl
@[simp] theorem removeFront_tick (s : State) (n : Nat) : (s.removeFront n).tick = s.tick := rfl
@[simp] theorem removeFront_pos (s : State) (n : Nat) : (s.removeFront n).pos = s.pos + n := rfl
@[simp] theorem removeFront_inHist (s : State) (n : Nat) : (s.removeFront n).inHist = s.inHist := rfl
@[simp] theorem removeFront_outHist (s : State) (n : Nat) : (s.removeFront n).outHist = s.outHist := rfl
@[simp] theorem removeFront_frameHist (s : State) (n : Nat) : (s.removeFront n).frameHist = s.frameHist := rfl
@[simp] theorem removeFront_dropTotal (s : State) (n : Nat) : (s.removeFront n).dropTotal = s.dropTotal := rfl
@[simp] theorem removeFront_statusHist (s : State) (n : Nat) : (s.removeFront n).statusHist = s.statusHist := rfl
@[simp] theorem removeFront_lastSync (s : State) (n : Nat) : (s.removeFront n).lastSync = s.lastSync := rfl

/-! discard -/

@[simp] theorem discard_cfg (s : State) (n : Nat) : (s.discard n).cfg = s.cfg := rfl
@[simp] theorem discard_buf (s : State) (n : Nat) : (s.discard n).buf = s.buf.drop n := rfl
@[simp] theorem discard_ph (s : State) (n : Nat) : (s.discard n).ph = s.ph := rfl
@[simp] theorem discard_frm (s : State) (n : Nat) : (s.discard n).frm = s.frm := rfl
@[simp] theorem discard_evt (s : State) (n : Nat) : (s.discard n).evt = s.evt := rfl
@[simp] theorem discard_acc (s : State) (n : Nat) : (s.discard n).acc = s.acc := rfl
@[simp] theorem discard_cleared (s : State) (n : Nat) : (s.discard n).cleared = false := rfl
@[simp] theorem discard_dropCount (s : State) (n : Nat) : (s.discard n).dropCount = some n := rfl
@[simp] theorem discard_inp (s : State) (n : Nat) : (s.discard n).inp = s.inp := rfl
@[simp] theorem discard_sched (s : State) (n : Nat) : (s.discard n).sched = s.sched := rfl
@[simp] theorem discard_tick (s : State) (n : Nat) : (s.discard n).tick = s.tick := rfl
@[simp] theorem discard_pos (s : State) (n : Nat) : (s.discard n).pos = s.pos + n := rfl
@[simp] theorem discard_inHist (s : State) (n : Nat) : (s.discard n).inHist = s.inHist := rfl
@[simp] theorem discard_outHist (s : State) (n : Nat) : (s.discard n).outHist = s.outHist := rfl
@[simp] theorem discard_frameHist (s : State) (n : Nat) : (s.discard n).frameHist = s.frameHist := rfl
@[simp] theorem discard_dropTotal (s : State) (n : Nat) : (s.discard n).dropTotal = s.dropTotal + n := rfl
@[simp] theorem discard_statusHist (s : State) (n : Nat) : (s.discard n).statusHist = s.statusHist := rfl
@[simp] theorem discard_lastSync (s : State) (n : Nat) : (s.discard n).lastSync = s.lastSync := rfl

/-! endCall -/

@[simp] theorem endCall_cfg (s : State) (r : CallResult) : (s.endCall r).cfg = s.cfg := rfl
@[simp] theorem endCall_buf (s : State) (r : CallResult) : (s.endCall r).buf = s.buf := rfl
@[simp] theorem endCall_ph (s : State) (r : CallResult) : (s.endCall r).ph = .entry := rfl
@[simp] theorem endCall_frm (s : State) (r : CallResult) : (s.endCall r).frm = s.frm := rfl
@[simp] theorem endCall_evt (s : State) (r : CallResult) : (s.endCall r).evt = s.evt := rfl
@[simp] theorem endCall_acc (s : State) (r : CallResult) : (s.endCall r).acc = s.acc := rfl
@[simp] theorem endCall_cleared (s : State) (r : CallResult) : (s.endCall r).cleared = s.cleared := rfl
@[simp] theorem endCall_dropCount (s : State) (r : CallResult) : (s.endCall r).dropCount = s.dropCount := rfl
@[simp] theorem endCall_inp (s : State) (r : CallResult) : (s.endCall r).inp = s.inp := rfl
@[simp] theorem endCall_sched (s : State) (r : CallResult) : (s.endCall r).sched = s.sched := rfl
@[simp] theorem endCall_tick (s : State) (r : CallResult) : (s.endCall r).tick = s.tick := rfl
@[simp] theorem endCall_pos (s : State) (r : CallResult) : (s.endCall r).pos = s.pos := rfl
@[simp] theorem endCall_inHist (s : State) (r : CallResult) : (s.endCall r).inHist = s.inHist := rfl
@[simp] theorem endCall_outHist (s : State) (r : CallResult) : (s.endCall r).outHist = s.outHist := rfl
@[simp] theorem endCall_frameHist (s : State) (r : CallResult) : (s.endCall r).frameHist = s.frameHist := rfl
@[simp] theorem endCall_dropTotal (s : State) (r : CallResult) : (s.endCall r).dropTotal = s.dropTotal := rfl
@[simp] theorem endCall_statusHist (s : State) (r : CallResult) : (s.endCall r).statusHist = s.statusHist ++ [r] := rfl
@[simp] theorem endCall_lastSync (s : State) (r : CallResult) : (s.endCall r).lastSync = s.lastSync := rfl

/-! deliver -/

@[simp] theorem deliver_cfg (s : State) (f : List Byte) (e : Event) : (s.deliver f e).cfg = s.cfg := rfl
@[simp] theorem deliver_buf (s : State) (f : List Byte) (e : Event) : (s.deliver f e).buf = s.buf := rfl
@[simp] theorem deliver_ph (s : State) (f : List Byte) (e : Event) : (s.deliver f e).ph = s.ph := rfl
@[simp] theorem deliver_frm (s : State) (f : List Byte) (e : Event) : (s.deliver f e).frm = none := rfl
@[simp] theorem deliver_evt (s : State) (f : List Byte) (e : Event) : (s.deliver f e).evt = some { ev := e, frame := f } := rfl
@[simp] theorem deliver_acc (s : State) (f : List Byte) (e : Event) : (s.deliver f e).acc = crc8 (crcCovered f) := rfl
@[simp] theorem deliver_cleared (s : State) (f : List Byte) (e : Event) : (s.deliver f e).cleared = false := rfl
@[simp] theorem deliver_dropCount (s : State) (f : List Byte) (e : Event) : (s.deliver f e).dropCount = none := rfl
@[simp] theorem deliver_inp (s : State) (f : List Byte) (e : Event) : (s.deliver f e).inp = s.inp := rfl
@[simp] theorem deliver_sched (s : State) (f : List Byte) (e : Event) : (s.deliver f e).sched = s.sched := rfl
@[simp] theorem deliver_tick (s : State) (f : List Byte) (e : Event) : (s.deliver f e).tick = s.tick := rfl
@[simp] theorem deliver_pos (s : State) (f : List Byte) (e : Event) : (s.deliver f e).pos = s.pos := rfl
@[simp] theorem deliver_inHist (s : State) (f : List Byte) (e : Event) : (s.deliver f e).inHist = s.inHist := rfl
@[simp] theorem deliver_outHist (s : State) (f : List Byte) (e : Event) : (s.deliver f e).outHist = s.outHist := rfl
@[simp] theorem deliver_frameHist (s : State) (f : List Byte) (e : Event) : (s.deliver f e).frameHist = s.frameHist := rfl
@[simp] theorem deliver_dropTotal (s : State) (f : List Byte) (e : Event) : (s.deliver f e).dropTotal = s.dropTotal := rfl
@[simp] theorem deliver_statusHist (s : State) (f : List Byte) (e : Event) : (s.deliver f e).statusHist = s.statusHist := rfl
@[simp] theorem deliver_lastSync (s : State) (f : List Byte) (e : Event) : (s.deliver f e).lastSync = s.lastSync := rfl

end Sys2Proof.Machine.State
end

