-- ==== Sys2Proof/Laws/Ops.lean ====
section
/-! SUPPORT. What each shared operation can answer, said once. -/

namespace Sys2Proof.Machine

/-- A guarded step takes its state when the guard holds, and otherwise has no effect. -/
theorem guarded_next_iff (g : Bool) (t s u : State) :
    guarded g t s = .next u ↔ (g = true ∧ u = t) ∨ (g = false ∧ u = s.idle) := by
  cases g <;> simp [guarded, eq_comm]

theorem guarded_ne_refused (g : Bool) (t s : State) (r : Refusal) : guarded g t s ≠ .refused r := by
  cases g <;> simp [guarded]

theorem guarded_pos {g : Bool} (h : g = true) (t s : State) : guarded g t s = .next t := by simp [guarded, h]

theorem guarded_neg {g : Bool} (h : g = false) (t s : State) : guarded g t s = .next s.idle := by simp [guarded, h]

/-- The row that FRM selects delivers its event. -/
theorem retire_selected {i : Instr} {e : Event} {s : State} {f : List Byte} (hf : s.frm = some f) (he : s.evt = none)
    (hd : decodeFrame f = .instr i) : retire i e s = .next (s.deliver f e) := by
  simp [retire, hf, he, hd]

/-- Everything a row can answer as a next state: its event delivered from the frame that selects it, or no effect. -/
theorem retire_next {i : Instr} {e : Event} {s t : State} (h : retire i e s = .next t) :
    (∃ f, s.frm = some f ∧ s.evt = none ∧ decodeFrame f = .instr i ∧ t = s.deliver f e) ∨ t = s.idle := by
  unfold retire at h
  split at h
  · rename_i f hf he
    split at h
    · rename_i j hj
      split at h
      · rename_i hij
        subst hij
        cases h
        exact .inl ⟨f, hf, he, hj, rfl⟩
      · cases h; exact .inr rfl
    · cases h
  · cases h; exact .inr rfl
  · cases h; exact .inr rfl

/-- A row is refused only on a frame the decoder rejects. -/
theorem retire_refused {i : Instr} {e : Event} {s : State} {r : Refusal} (h : retire i e s = .refused r) :
    r = .brokenFrame ∧ ∃ f q, s.frm = some f ∧ decodeFrame f = .reject q := by
  unfold retire at h
  split at h
  · rename_i f hf he
    split at h
    · split at h <;> cases h
    · rename_i q hq
      cases h
      exact ⟨rfl, f, q, hf, hq⟩
  · cases h
  · cases h

/-- Everything DECODE can answer as a next state. -/
theorem execDecode_next {s t : State} (h : execDecode s = .next t) :
    (∃ f e, s.frm = some f ∧ s.evt = none ∧ decodeEvent s.cfg f = some e ∧ t = s.deliver f e) ∨ t = s.idle := by
  unfold execDecode at h
  split at h
  · rename_i f hf he
    split at h
    · rename_i e hd
      cases h
      exact .inl ⟨f, e, hf, he, hd, rfl⟩
    · cases h
  · cases h; exact .inr rfl
  · cases h; exact .inr rfl

/-- Everything TAKE can answer. -/
theorem execTake_next {s t : State} (h : execTake s = .next t) :
    (∃ r, s.evt = some r ∧
      t = { s with evt := none, outHist := s.outHist ++ [r.ev], cleared := false, dropCount := none }) ∨
    (s.evt = none ∧ t = s.idle) := by
  unfold execTake at h
  split at h
  · rename_i r hr; cases h; exact .inl ⟨r, hr, rfl⟩
  · rename_i hr; cases h; exact .inr ⟨hr, rfl⟩

end Sys2Proof.Machine
end

