-- ==== Sys2Proof/Laws/PerInstr.lean ====
section
/-! SUPPORT. The per-instruction family `FrameFits`: a well-formed frame row is written in 4 to 64 bytes
(30_encoding.md R62). -/

namespace Sys2Proof.Laws.FrameFits

open Machine

/-- A well-formed frame row is written in 4 to 64 bytes. -/
def Statement (i : Instr) : Prop :=
  i.wf = true → i.isFrameRow = true → ∀ f, encode i = some f → 4 ≤ f.length ∧ f.length ≤ 64

/-- A frame built from a payload of at most 60 bytes fits. -/
theorem mkFrame_fits {t : Byte} {p f : List Byte} (hp : p.length ≤ 60) (hf : some (mkFrame t p) = some f) :
    4 ≤ f.length ∧ f.length ≤ 64 := by
  cases hf
  rw [mkFrame_length]
  omega

theorem gps (lat lon : BitVec 32) (groundspeed heading altitude : BitVec 16) (satellites : Byte)
    (surplus : List Byte) : Statement (.gps lat lon groundspeed heading altitude satellites surplus) := by
  intro hw _ f hf
  refine mkFrame_fits ?_ hf
  simp [Instr.wf] at hw
  simp; omega

theorem battery (voltage : BitVec 16) (remainder : List Byte) : Statement (.battery voltage remainder) := by
  intro hw _ f hf
  refine mkFrame_fits ?_ hf
  simp [Instr.wf] at hw
  simp; omega

theorem linkStatistics (rssi1 rssi2 linkQuality snr : Byte) (surplus : List Byte) :
    Statement (.linkStatistics rssi1 rssi2 linkQuality snr surplus) := by
  intro hw _ f hf
  refine mkFrame_fits ?_ hf
  simp [Instr.wf] at hw
  simp; omega

theorem attitude (pitch roll yaw : BitVec 16) (surplus : List Byte) : Statement (.attitude pitch roll yaw surplus) := by
  intro hw _ f hf
  refine mkFrame_fits ?_ hf
  simp [Instr.wf] at hw
  simp; omega

theorem flightMode (payload : List Byte) : Statement (.flightMode payload) := by
  intro hw _ f hf
  exact mkFrame_fits (by simpa [Instr.wf] using hw) hf

theorem unknown (typ : Byte) (payload : List Byte) : Statement (.unknown typ payload) := by
  intro hw _ f hf
  simp [Instr.wf] at hw
  exact mkFrame_fits hw.2 hf

theorem checksumMismatch (frame : List Byte) : Statement (.checksumMismatch frame) := by
  intro hw _ f hf
  cases hf
  simp [Instr.wf, frameOk] at hw
  omega

theorem malformedPayload (typ : Byte) (payload : List Byte) : Statement (.malformedPayload typ payload) := by
  intro hw _ f hf
  refine mkFrame_fits ?_ hf
  have hm := minPayload_le typ
  simp [Instr.wf] at hw
  omega

theorem clear : Statement .clear := by intro _ h; cases h

theorem trim (k : Nat) : Statement (.trim k) := by intro _ h; cases h

theorem drop1 (l : Byte) : Statement (.drop1 l) := by intro _ h; cases h

theorem extract (l : Byte) : Statement (.extract l) := by intro _ h; cases h

theorem retNeedMore : Statement .retNeedMore := by intro _ h; cases h

theorem feed (b : Byte) : Statement (.feed b) := by intro _ h; cases h

theorem decode : Statement .decode := by intro _ h; cases h

theorem take : Statement .take := by intro _ h; cases h

theorem reset : Statement .reset := by intro _ h; cases h

end Sys2Proof.Laws.FrameFits
end

