-- ==== Sys2Proof/Tests/Slice0.lean ====
section
/-! SUPPORT. The model's own tests: the vectors of 95_test_vectors.md, ill-formed terms that WellFormed refuses, and for
each obligation with hypotheses a `witness_` theorem of a state and operands that meet all of them together. -/

namespace Sys2Proof.Tests

open Machine Safety

/-! ## Helpers -/

/-- The reset state with a phase and bytes in BUF. -/
def mid (ph : Phase) (buf : List Byte) : State := { State.reset with ph := ph, buf := buf }

/-- The reset state with a frame in FRM. -/
def holding (f : List Byte) : State := { State.reset with frm := some f }

/-- The reset state with `BUF_CAP = 64` and `n` bytes of noise in BUF. -/
def capped (n : Nat) : State :=
  { State.reset with cfg := { Config.default with bufCap := some ⟨64, Nat.le_refl 64⟩ }, buf := List.replicate n 0x55 }

/-- The next state of an outcome. -/
def nextOf : Host.Outcome State Fault Refusal → Option State
  | .next t => some t
  | .fault _ => none
  | .refused _ => none

/-- PH, BUF and FRM after an outcome. -/
def syncView (o : Host.Outcome State Fault Refusal) : Option (Phase × List Byte × Option (List Byte)) :=
  (nextOf o).map fun t => (t.ph, t.buf, t.frm)

/-- The pulses after an outcome. -/
def pulses (o : Host.Outcome State Fault Refusal) : Option (Bool × Option Nat) :=
  (nextOf o).map fun t => (t.cleared, t.dropCount)

/-- The event after an outcome. -/
def eventOf (o : Host.Outcome State Fault Refusal) : Option Event :=
  (nextOf o).bind fun t => t.evt.map EvtReg.ev

/-- V1 of 95_test_vectors.md section 2.0. -/
def v1 : List Byte := [0xC8, 0x11, 0x02, 0x16, 0x83, 0xFE, 0x08, 0xB7, 0x08, 0x48, 0x30, 0x01, 0x68, 0x00, 0x00, 0x07,
  0xD0, 0x0C, 0x74]
/-- V2. -/
def v2 : List Byte := [0xC8, 0x04, 0x08, 0x00, 0xF0, 0x62]
/-- V3. -/
def v3 : List Byte := [0xC8, 0x06, 0xFF, 0xDE, 0xAD, 0xBE, 0xEF, 0x0C]
/-- V4. -/
def v4 : List Byte := [0xC8, 0x06, 0x14, 0x5A, 0x60, 0x64, 0xF6, 0x85]
/-- V5. -/
def v5 : List Byte := [0xC8, 0x08, 0x1E, 0x03, 0xE8, 0xF8, 0x30, 0x7A, 0xB8, 0xAC]
/-- V6. -/
def v6 : List Byte := [0xC8, 0x07, 0x21, 0x41, 0x43, 0x52, 0x4F, 0x00, 0x80]
/-- V10. -/
def v10 : List Byte := [0xC8, 0x02, 0x00, 0x00]
/-- V12. -/
def v12 : List Byte := [0xC8, 0x03, 0x08, 0x01, 0x8D]
/-- V14. -/
def v14 : List Byte := [0xC8, 0x10, 0x02, 0x16, 0x83, 0xFE, 0x08, 0xB7, 0x08, 0x48, 0x30, 0x01, 0x68, 0x00, 0x00, 0x07,
  0xD0, 0xDB]
/-- V15. -/
def v15 : List Byte := [0xC8, 0x05, 0x14, 0x5A, 0x60, 0x64, 0xEA]
/-- V17. -/
def v17 : List Byte := [0xC8, 0x07, 0x1E, 0x03, 0xE8, 0xF8, 0x30, 0x7A, 0xAC]
/-- V2 with one payload bit flipped (95_test_vectors.md section 1.4). -/
def v2Bad : List Byte := [0xC8, 0x04, 0x08, 0x00, 0xF1, 0x62]

set_option maxRecDepth 20000

/-! ## WellFormed refuses what no encoding carries -/

theorem test_wf_gps_surplus_too_long : Instr.wf (.gps 0 0 0 0 0 0 (List.replicate 46 0)) = false := by decide
theorem test_wf_battery_remainder_too_long : Instr.wf (.battery 0 (List.replicate 59 0)) = false := by decide
theorem test_wf_link_surplus_too_long : Instr.wf (.linkStatistics 0 0 0 0 (List.replicate 57 0)) = false := by decide
theorem test_wf_attitude_surplus_too_long : Instr.wf (.attitude 0 0 0 (List.replicate 55 0)) = false := by decide
theorem test_wf_flight_mode_too_long : Instr.wf (.flightMode (List.replicate 61 0)) = false := by decide
theorem test_wf_unknown_recognised_type : Instr.wf (.unknown 0x08 []) = false := by decide
theorem test_wf_unknown_too_long : Instr.wf (.unknown 0x7A (List.replicate 61 0)) = false := by decide
theorem test_wf_mismatch_good_checksum : Instr.wf (.checksumMismatch v2) = false := by decide
theorem test_wf_mismatch_broken_frame : Instr.wf (.checksumMismatch [0xC8, 0x05, 0x08, 0x00, 0xF1, 0x62]) = false := by
  decide
theorem test_wf_malformed_long_enough : Instr.wf (.malformedPayload 0x08 [0, 0]) = false := by decide
theorem test_wf_malformed_flight_mode : Instr.wf (.malformedPayload 0x21 []) = false := by decide
theorem test_wf_trim_nothing : Instr.wf (.trim 0) = false := by decide
theorem test_wf_drop1_plausible : Instr.wf (.drop1 0x02) = false ∧ Instr.wf (.drop1 0x3E) = false := by decide
theorem test_wf_extract_implausible : Instr.wf (.extract 0x01) = false ∧ Instr.wf (.extract 0x3F) = false := by decide

/-! ## Decoding words written out from the spec's encodings (95_test_vectors.md section 2.0) -/

theorem test_decode_v1 : decodeFrame v1 = .instr (.gps 0x1683FE08 0xB7084830 0x0168 0x0000 0x07D0 0x0C []) := by decide
theorem test_decode_v21 :
    decodeFrame [0xC8, 0x12, 0x02, 0x00, 0x00, 0x00, 0x01, 0xFF, 0xFF, 0xFF, 0xFF, 0x00, 0x24, 0xFF, 0xFF, 0x03, 0xE8,
      0x00, 0x99, 0xAA] = .instr (.gps 1 0xFFFFFFFF 0x0024 0xFFFF 0x03E8 0x00 [0x99]) := by decide
theorem test_decode_v2 : decodeFrame v2 = .instr (.battery 0x00F0 []) := by decide
theorem test_decode_v13 :
    decodeFrame [0xC8, 0x0A, 0x08, 0x00, 0xA8, 0x00, 0x0F, 0x00, 0x04, 0xB0, 0x4B, 0xA5] =
      .instr (.battery 0x00A8 [0x00, 0x0F, 0x00, 0x04, 0xB0, 0x4B]) := by decide
theorem test_decode_v4 : decodeFrame v4 = .instr (.linkStatistics 0x5A 0x60 0x64 0xF6 []) := by decide
theorem test_decode_v16 :
    decodeFrame [0xC8, 0x0C, 0x14, 0x5A, 0x60, 0x64, 0xF6, 0x00, 0x02, 0x03, 0x50, 0x63, 0x08, 0xF8] =
      .instr (.linkStatistics 0x5A 0x60 0x64 0xF6 [0x00, 0x02, 0x03, 0x50, 0x63, 0x08]) := by decide
theorem test_decode_v5 : decodeFrame v5 = .instr (.attitude 0x03E8 0xF830 0x7AB8 []) := by decide
theorem test_decode_v23 :
    decodeFrame [0xC8, 0x08, 0x1E, 0x7F, 0xFF, 0x80, 0x00, 0xFF, 0xFF, 0xBE] =
      .instr (.attitude 0x7FFF 0x8000 0xFFFF []) := by decide
theorem test_decode_v6 : decodeFrame v6 = .instr (.flightMode [0x41, 0x43, 0x52, 0x4F, 0x00]) := by decide
theorem test_decode_v9 : decodeFrame [0xC8, 0x02, 0x21, 0x71] = .instr (.flightMode []) := by decide
theorem test_decode_v3 : decodeFrame v3 = .instr (.unknown 0xFF [0xDE, 0xAD, 0xBE, 0xEF]) := by decide
theorem test_decode_v18 : decodeFrame [0xC8, 0x04, 0xC8, 0x01, 0x02, 0x3E] = .instr (.unknown 0xC8 [0x01, 0x02]) := by
  decide
theorem test_decode_v19 :
    decodeFrame ([0xC8, 0x3E, 0x7A] ++ (List.range 60).map (BitVec.ofNat 8) ++ [0x76]) =
      .instr (.unknown 0x7A ((List.range 60).map (BitVec.ofNat 8))) := by decide
theorem test_decode_flipped : decodeFrame v2Bad = .instr (.checksumMismatch v2Bad) := by decide
theorem test_decode_mismatch_before_length :
    decodeFrame [0xC8, 0x03, 0x08, 0x01, 0x8C] = .instr (.checksumMismatch [0xC8, 0x03, 0x08, 0x01, 0x8C]) := by decide
theorem test_decode_v11 : decodeFrame [0xC8, 0x02, 0x08, 0x29] = .instr (.malformedPayload 0x08 []) := by decide
theorem test_decode_v14 :
    decodeFrame v14 = .instr (.malformedPayload 0x02
      [0x16, 0x83, 0xFE, 0x08, 0xB7, 0x08, 0x48, 0x30, 0x01, 0x68, 0x00, 0x00, 0x07, 0xD0]) := by decide

/-- What breaks the input condition is rejected by name (42_dispatch.md R111). -/
theorem test_decode_rejects :
    decodeFrame [0xC8, 0x02, 0x00] = .reject .tooShort ∧
    decodeFrame (0xC8 :: 0x3F :: List.replicate 63 0) = .reject .tooLong ∧
    decodeFrame [0x55, 0x02, 0x00, 0x00] = .reject .noSync ∧
    decodeFrame [0xC8, 0x03, 0x00, 0x00] = .reject .wrongLength := by decide

/-- The SYNC rows, from the buffers of 95_test_vectors.md section 2.1. -/
theorem test_decode_sync_rows :
    decodeSync .entry [0x01, 0x02, 0x03] false = .step .clear ∧
    decodeSync .entry [0x55, 0xAA, 0xC8, 0x04] false = .step (.trim 2) ∧
    decodeSync .entry [0xC8, 0xC8, 0x04] false = .step (.drop1 0xC8) ∧
    decodeSync .scan [0xC8, 0x3F, 0x00] false = .step (.drop1 0x3F) ∧
    decodeSync .entry [0xC8, 0x04, 0x08, 0x00, 0xF0, 0x62, 0xAA] false = .step (.extract 0x04) ∧
    decodeSync .scan [0xC8, 0x04, 0x08] false = .step .retNeedMore ∧
    decodeSync .entry [0xC8, 0x04, 0x08] false = .hold ∧
    decodeSync .entry [0xC8, 0x04, 0x08, 0x00, 0xF0, 0x62, 0xAA] true = .stall := by decide

/-- Table words: a frame header of 24 bits, the SYNC header of 16 bits (30_encoding.md R67, R68). -/
theorem test_decode_table_words :
    decodeTableWord 24 0xC80200 = some (.unknown 0x00 []) ∧
    decodeTableWord 24 0xC80002 = none ∧
    decodeTableWord 24 0xC80408 = some (.checksumMismatch [0xC8, 0x04, 0x08, 0x00, 0x00, 0x00]) ∧
    decodeTableWord 16 0xC800 = some (.drop1 0x00) ∧
    decodeTableWord 16 0xC802 = some (.extract 0x02) ∧
    decodeTableWord 16 0x0000 = some .clear := by decide

theorem test_fetch_word_runs_the_row :
    eventOf (step (State.reset.withFetchWord 24 0xC80200)) = some (.unknownPacket 0x00 []) ∧
    pulses (step (State.reset.withFetchWord 16 0xC800)) = some (false, some 1) := by decide

/-! ## One step each (95_test_vectors.md sections 2.1 and 2.8) -/

theorem test_feed_holds :
    syncView (exec (.feed 0x00) (mid .entry [0xC8, 0x04, 0x08])) = some (.entry, [0xC8, 0x04, 0x08, 0x00], none) := by
  decide
theorem test_feed_not_while_scanning :
    syncView (exec (.feed 0xAA) (mid .scan [0xC8, 0x00, 0x55])) = some (.scan, [0xC8, 0x00, 0x55], none) := by decide
theorem test_clear_entry :
    syncView (exec .clear (mid .entry [0x01, 0x02, 0x03])) = some (.entry, [], none) ∧
    pulses (exec .clear (mid .entry [0x01, 0x02, 0x03])) = some (true, some 3) := by decide
theorem test_clear_lone_byte :
    syncView (exec .clear (mid .scan [0x55])) = some (.entry, [], none) ∧
    pulses (exec .clear (mid .scan [0x55])) = some (true, some 1) := by decide
theorem test_trim_two :
    syncView (exec (.trim 2) (mid .entry [0x55, 0xAA, 0xC8, 0x04])) = some (.scan, [0xC8, 0x04], none) ∧
    pulses (exec (.trim 2) (mid .entry [0x55, 0xAA, 0xC8, 0x04])) = some (false, some 2) := by decide
theorem test_trim_other_count_waits :
    syncView (exec (.trim 1) (mid .entry [0x55, 0xAA, 0xC8, 0x04])) =
      some (.entry, [0x55, 0xAA, 0xC8, 0x04], none) := by decide
theorem test_drop1_sync_byte_as_length :
    syncView (exec (.drop1 0xC8) (mid .entry [0xC8, 0xC8, 0x04])) = some (.scan, [0xC8, 0x04], none) ∧
    pulses (exec (.drop1 0xC8) (mid .entry [0xC8, 0xC8, 0x04])) = some (false, some 1) := by decide
theorem test_drop1_not_on_frame :
    syncView (exec (.drop1 0x04) (mid .entry [0xC8, 0x04, 0x08])) = some (.entry, [0xC8, 0x04, 0x08], none) := by decide
theorem test_extract_leaves_the_rest :
    syncView (exec (.extract 0x04) (mid .entry (v2 ++ [0xAA]))) = some (.entry, [0xAA], some v2) := by decide
theorem test_extract_stalls :
    syncView (exec (.extract 0x04) { mid .entry v2 with frm := some v10 }) = some (.entry, v2, some v10) := by decide
theorem test_ret_need_more :
    syncView (exec .retNeedMore (mid .scan [0xC8, 0x04, 0x08])) = some (.entry, [0xC8, 0x04, 0x08], none) ∧
    pulses (exec .retNeedMore (mid .scan [0xC8, 0x04, 0x08])) = some (false, none) := by decide
theorem test_ret_need_more_not_in_entry :
    (nextOf (exec .retNeedMore (mid .entry [0xC8]))).map State.statusHist = some [] := by decide
theorem test_gps_event :
    eventOf (exec (.gps 0x1683FE08 0xB7084830 0x0168 0x0000 0x07D0 0x0C []) (holding v1)) =
      some (.gps 377749000 (-1224194000) 360 2000 12) := by decide
theorem test_battery_event : eventOf (exec (.battery 0x00F0 []) (holding v2)) = some (.battery 240) := by decide
theorem test_battery_other_frame_waits : eventOf (exec (.battery 0x00F1 []) (holding v2)) = none := by decide
theorem test_link_event :
    eventOf (exec (.linkStatistics 0x5A 0x60 0x64 0xF6 []) (holding v4)) = some (.linkStatistics 90 96 100 (-10)) := by
  decide
theorem test_attitude_event :
    eventOf (exec (.attitude 0x03E8 0xF830 0x7AB8 []) (holding v5)) = some (.attitude 1000 (-2000) 31416) := by decide
theorem test_flight_mode_event :
    eventOf (exec (.flightMode [0x41, 0x43, 0x52, 0x4F, 0x00]) (holding v6)) =
      some (.flightMode [0x41, 0x43, 0x52, 0x4F]) := by decide
theorem test_unknown_event :
    eventOf (exec (.unknown 0xFF [0xDE, 0xAD, 0xBE, 0xEF]) (holding v3)) =
      some (.unknownPacket 0xFF [0xDE, 0xAD, 0xBE, 0xEF]) := by decide
theorem test_mismatch_event :
    eventOf (exec (.checksumMismatch v2Bad) (holding v2Bad)) = some (.checksumMismatch v2Bad) := by decide
theorem test_malformed_event :
    eventOf (exec (.malformedPayload 0x08 [0x01]) (holding v12)) = some (.malformedPayload 0x08) := by decide
theorem test_decode_step :
    eventOf (exec .decode (holding v2)) = some (.battery 240) ∧
    (nextOf (exec .decode (holding v2))).map State.frm = some none := by decide
theorem test_decode_waits :
    (nextOf (exec .decode { holding v2 with evt := some ⟨.battery 1, v2⟩ })).map State.frm = some (some v2) := by decide
theorem test_take :
    (nextOf (exec .take { State.reset with evt := some ⟨.battery 240, v2⟩ })).map (fun t => (t.evt, t.outHist)) =
      some (none, [.battery 240]) := by decide
theorem test_take_waits : (nextOf (exec .take State.reset)).map State.outHist = some [] := by decide
theorem test_reset :
    nextOf (exec .reset { mid .scan [0xC8, 0x04, 0x08] with frm := some v2, evt := some ⟨.battery 240, v2⟩ }) =
      some State.reset := by decide

/-- The event port after the DECODE of V6 (95_test_vectors.md section 2.8). -/
theorem test_port_v6 :
    (nextOf (exec .decode (holding v6))).bind (fun t => (eventPort false t).map fun p => (p.kind, p.len, p.typ, p.plen, p.tlen)) =
      some (5, 9, 0x21, 5, some 4) := by decide

/-- The status outputs after a CLEAR, and while the reset input is high (70_reset_and_hazards.md R171). -/
theorem test_status_port :
    (nextOf (exec .clear (mid .entry [0x01, 0x02, 0x03]))).map (statusPort false) =
      some { inReady := true, needMore := true, cleared := true, dropValid := true, dropCount := some 3,
             evtValid := false } ∧
    (statusPort true { State.reset with evt := some ⟨.battery 240, v2⟩ }).inReady = false ∧
    (statusPort true { State.reset with evt := some ⟨.battery 240, v2⟩ }).evtValid = false ∧
    eventPort true { State.reset with evt := some ⟨.battery 240, v2⟩ } = none := by decide

/-! ## Operations (95_test_vectors.md sections 2.2, 2.3, 2.5, 2.7, 3) -/

theorem test_crc8 :
    crc8 [0x08, 0x00, 0xF1] = 0xB7 ∧ crc8 [0x80] = 0xEF ∧ crc8 [0xFF] = 0xF9 ∧ crc8 [0xC8, 0x04, 0x08] = 0x4F := by decide

theorem test_next_frame :
    nextFrame [0xC8, 0xFF, 0xC8, 0x01, 0xC8, 0x3F, 0xC8, 0x02, 0x21, 0x71] = (.frame [0xC8, 0x02, 0x21, 0x71], []) ∧
    nextFrame [0xC8, 0xC8, 0xC8, 0xC8] = (.needMore, [0xC8]) ∧
    nextFrame [0xC8, 0x3F, 0x00, 0x00] = (.nothing, []) ∧
    nextFrame [0xC8, 0x04, 0xC8, 0x04, 0x08, 0x00, 0xF0, 0x62] =
      (.frame [0xC8, 0x04, 0xC8, 0x04, 0x08, 0x00], [0xF0, 0x62]) := by decide

/-- Programs P2, P4 and P6: the frames of the stream and their positions. -/
theorem test_stream_frames :
    streamFrames ([0x55, 0xC8, 0x00, 0xC8] ++ v2 ++ [0xAA]) = [(4, v2)] ∧
    streamFrames ([0xC8, 0x04] ++ v2) = [(0, [0xC8, 0x04, 0xC8, 0x04, 0x08, 0x00])] ∧
    streamFrames ([0xC8, 0x04, 0x08, 0x00] ++ v2) = [(0, [0xC8, 0x04, 0x08, 0x00, 0xC8, 0x04])] := by decide

/-- Flight Mode V27 under the eight settings A to H. -/
theorem test_flight_mode_settings :
    [(0, false, true), (0, false, false), (0, true, false), (1, false, false), (2, false, false), (2, false, true),
      (1, true, true), (60, false, true)].map (fun x =>
        flightModeText { bufCap := none, fmFixedTrim := x.1, fmNulCut := x.2.1, fmCtrlStrip := x.2.2 }
          [0x21, 0x45, 0x52, 0x52, 0x00, 0xAA, 0xBB]) =
      [[0x21, 0x45, 0x52, 0x52, 0x00, 0xAA, 0xBB], [0x21, 0x45, 0x52, 0x52, 0x00, 0xAA, 0xBB], [0x21, 0x45, 0x52, 0x52],
        [0x21, 0x45, 0x52, 0x52, 0x00, 0xAA], [0x21, 0x45, 0x52, 0x52, 0x00], [0x21, 0x45, 0x52, 0x52],
        [0x21, 0x45, 0x52, 0x52], []] := by decide

/-- Flight Mode V24, V25 and V26 under the default setting. -/
theorem test_flight_mode_default :
    flightModeText Config.default [0x00, 0x0A, 0x7F] = [] ∧
    flightModeText Config.default [0x41, 0x00, 0x42, 0x00, 0x00] = [0x41, 0x00, 0x42] ∧
    flightModeText Config.default [0xC8, 0x41, 0x20] = [0xC8, 0x41, 0x20] := by decide

/-- V20: the extreme values, and an altitude below zero. -/
theorem test_derived_extremes :
    derived (.gps (-2147483648) 2147483647 65535 0 255) =
      some (.gps (-2147483648 / 10000000) (2147483647 / 10000000) (65535 / 36) (-1000) 255) := by norm_num [derived]

/-! ## Witnesses: a state and operands that meet the hypotheses of each obligation, at the ends of their ranges -/

/-- The largest GPS row: 45 surplus bytes, a frame of 64. -/
theorem witness_FrameRowsDecodeTheirEncoding :
    (∃ f, (Instr.gps 1 2 3 4 5 6 (List.replicate 45 7)).isFrameRow = true ∧
      (Instr.gps 1 2 3 4 5 6 (List.replicate 45 7)).wf = true ∧
      encode (.gps 1 2 3 4 5 6 (List.replicate 45 7)) = some f) ∧
    ∃ f, (Instr.malformedPayload 0x14 [1, 2, 3]).isFrameRow = true ∧
      (Instr.malformedPayload 0x14 [1, 2, 3]).wf = true ∧ encode (.malformedPayload 0x14 [1, 2, 3]) = some f :=
  ⟨⟨_, by decide, by decide, rfl⟩, _, by decide, by decide, rfl⟩

theorem witness_DecodedFramesEncodeBack : decodeFrame v2 = .instr (.battery 0x00F0 []) := by decide

/-- One row of each encoded kind, followed by bytes that meet the row's own premise. -/
theorem witness_SyncRowsDecodeTheirEncoding :
    (Instr.clear.isSyncRow = true ∧ Instr.clear.wf = true ∧ encode .clear = some [0x00, 0x00] ∧
      ∀ b ∈ ([0x55] : List Byte), b ≠ 0xC8#8) ∧
    ((Instr.trim 1).isSyncRow = true ∧ (Instr.trim 1).wf = true ∧ encode (.trim 1) = some [0x00, 0xC8]) ∧
    ((Instr.drop1 0x3F).isSyncRow = true ∧ (Instr.drop1 0x3F).wf = true ∧
      encode (.drop1 0x3F) = some [0xC8, 0x3F]) ∧
    ((Instr.extract 0x02).isSyncRow = true ∧ (Instr.extract 0x02).wf = true ∧
      encode (.extract 0x02) = some [0xC8, 0x02] ∧
      ∀ l : Byte, Instr.extract 0x02 = .extract l → l.toNat + 2 ≤ ([0xC8, 0x02] ++ [0x00, 0x00] : List Byte).length) := by
  refine ⟨by decide, by decide, by decide, rfl, rfl, rfl, fun l h => ?_⟩
  cases h
  decide

theorem witness_CrcOkIffWholeFoldIsZero : 4 ≤ v10.length ∧ crcOk v10 = true ∧ 4 ≤ v2Bad.length ∧ crcOk v2Bad = false := by
  decide

theorem witness_BuiltFramesAreValid : (List.replicate 60 0x00#8).length ≤ 60 := by decide

/-- The first bit of the type byte and the last bit of the crc byte. -/
theorem witness_SingleBitFlipIsDetected :
    (frameOk v2 = true ∧ crcOk v2 = true ∧ 2 ≤ 2 ∧ 2 < v2.length ∧ 0 < 8) ∧
    (frameOk v2 = true ∧ crcOk v2 = true ∧ 2 ≤ 5 ∧ 5 < v2.length ∧ 7 < 8) := by decide

/-- Room for one byte, no room, a call in progress. -/
theorem witness_FeedAppendsTheByte :
    ((capped 63).ph = .entry ∧ ∀ cap, (capped 63).cfg.bufCap = some cap → (capped 63).buf.length < cap.val) ∧
    (∃ cap, (capped 64).cfg.bufCap = some cap ∧ cap.val ≤ (capped 64).buf.length) ∧ (mid .scan [0xC8]).ph = .scan := by
  refine ⟨⟨rfl, fun cap h => ?_⟩, ⟨_, rfl, by decide⟩, rfl⟩
  cases h
  decide

theorem witness_AppendKeepsOffsets :
    (inReady (mid .entry [0xC8]) = true ∧ ∃ t, exec (.feed 0x04) (mid .entry [0xC8]) = .next t) ∧
    (∀ b, Instr.clear ≠ .feed b) ∧ ∃ t, exec .clear (mid .scan []) = .next t :=
  ⟨⟨by decide, _, rfl⟩, fun b h => (by cases h), _, rfl⟩

theorem witness_ChunkIsFedByteByByte :
    (capped 61).ph = .entry ∧ roomFor [0x01#8, 0x02#8, 0x03#8].length (capped 61) = true := by decide

theorem witness_ClearDiscardsTheBuffer :
    ((mid .scan [0x55]).ph = .scan ∧ ∀ b ∈ (mid .scan [0x55]).buf, b ≠ 0xC8#8) ∧
    (2 ≤ (mid .entry [0x01, 0x02]).buf.length ∧ ∀ b ∈ (mid .entry [0x01, 0x02]).buf, b ≠ 0xC8#8) := by decide

theorem witness_TrimDropsTheNoise :
    ((mid .scan [0x00, 0xC8]).ph = .scan ∧ 0 < 1 ∧ (mid .scan [0x00, 0xC8]).buf[1]? = some 0xC8#8 ∧
      ∀ j < 1, (mid .scan [0x00, 0xC8]).buf[j]? ≠ some 0xC8#8) ∧
    (2 ≤ (mid .entry [0x55, 0xAA, 0xC8]).buf.length ∧ 0 < 2 ∧
      (mid .entry [0x55, 0xAA, 0xC8]).buf[2]? = some 0xC8#8 ∧
      ∀ j < 2, (mid .entry [0x55, 0xAA, 0xC8]).buf[j]? ≠ some 0xC8#8) := by decide

/-- The two ends of the implausible lengths next to the plausible ones. -/
theorem witness_Drop1DropsTheBogusSync :
    ((mid .entry [0xC8, 0x01]).buf[0]? = some 0xC8#8 ∧ (mid .entry [0xC8, 0x01]).buf[1]? = some 0x01#8 ∧
      (0x01#8).toNat < 2) ∧
    ((mid .scan [0xC8, 0x3F]).buf[0]? = some 0xC8#8 ∧ (mid .scan [0xC8, 0x3F]).buf[1]? = some 0x3F#8 ∧
      62 < (0x3F#8).toNat) := by decide

/-- The shortest and the longest frame. -/
theorem witness_ExtractCopiesTheFrame :
    ((mid .scan v10).buf[0]? = some 0xC8#8 ∧ (mid .scan v10).buf[1]? = some 0x02#8 ∧ 2 ≤ (0x02#8).toNat ∧
      (0x02#8).toNat ≤ 62 ∧ (0x02#8).toNat + 2 ≤ (mid .scan v10).buf.length ∧ (mid .scan v10).frm = none) ∧
    ((mid .entry (0xC8 :: 0x3E :: List.replicate 62 0)).buf[0]? = some 0xC8#8 ∧
      (mid .entry (0xC8 :: 0x3E :: List.replicate 62 0)).buf[1]? = some 0x3E#8 ∧ 2 ≤ (0x3E#8).toNat ∧
      (0x3E#8).toNat ≤ 62 ∧
      (0x3E#8).toNat + 2 ≤ (mid .entry (0xC8 :: 0x3E :: List.replicate 62 0)).buf.length ∧
      (mid .entry (0xC8 :: 0x3E :: List.replicate 62 0)).frm = none) := by decide

/-- One byte, and a frame that lacks its last byte. -/
theorem witness_RetNeedMoreChangesThePhase :
    ((mid .scan [0xC8]).ph = .scan ∧ (mid .scan [0xC8]).buf[0]? = some 0xC8#8 ∧ (mid .scan [0xC8]).buf.length < 2) ∧
    ((mid .scan [0xC8, 0x02, 0x00]).ph = .scan ∧ (mid .scan [0xC8, 0x02, 0x00]).buf[0]? = some 0xC8#8 ∧
      ∃ l : Byte, (mid .scan [0xC8, 0x02, 0x00]).buf[1]? = some l ∧ 2 ≤ l.toNat ∧ l.toNat ≤ 62 ∧
        (mid .scan [0xC8, 0x02, 0x00]).buf.length < l.toNat + 2) :=
  ⟨by decide, rfl, rfl, 0x02, by decide⟩

theorem witness_FalseGuardHasNoEffect :
    (Instr.clear.isSyncRow = true ∧ syncChoice (mid .entry [0x55]) ≠ .step .clear) ∧
    ((Instr.battery 0 []).isFrameRow = true ∧ State.reset.frm = none) ∧
    (Instr.decode = .decode ∧ { holding v2 with evt := some ⟨.battery 1, v2⟩ }.evt ≠ none) ∧
    ((Instr.battery 0 []).isFrameRow = true ∧ (holding v2).frm = some v2 ∧
      decodeFrame v2 = .instr (.battery 0x00F0 []) ∧ Instr.battery 0x00F0 [] ≠ .battery 0 []) ∧
    (Instr.take = .take ∧ State.reset.evt = none) := by decide

/-- Each row with the number of bytes it removes. -/
theorem witness_FrontRemovalShiftsOffsets :
    (syncChoice (mid .scan []) = .step .clear ∧ ∃ t, exec .clear (mid .scan []) = .next t) ∧
    (syncChoice (mid .scan [0x00, 0xC8]) = .step (.trim 1) ∧ ∃ t, exec (.trim 1) (mid .scan [0x00, 0xC8]) = .next t) ∧
    (syncChoice (mid .entry [0xC8, 0x00]) = .step (.drop1 0x00) ∧
      ∃ t, exec (.drop1 0x00) (mid .entry [0xC8, 0x00]) = .next t) ∧
    (syncChoice (mid .entry v10) = .step (.extract 0x02) ∧ ∃ t, exec (.extract 0x02) (mid .entry v10) = .next t) ∧
    (syncChoice (mid .scan [0xC8]) = .step .retNeedMore ∧ ∃ t, exec .retNeedMore (mid .scan [0xC8]) = .next t) :=
  ⟨⟨by decide, _, rfl⟩, ⟨by decide, _, rfl⟩, ⟨by decide, _, rfl⟩, ⟨by decide, _, rfl⟩, by decide, _, rfl⟩

theorem witness_SyncRowsLeaveTheRest :
    (Instr.clear.isSyncRow = true ∧ (∀ l, Instr.clear ≠ .extract l) ∧ ∃ t, exec .clear (mid .scan [0x55]) = .next t) ∧
    ((Instr.extract 0x02).isSyncRow = true ∧ syncChoice (mid .entry v10) = .step (.extract 0x02) ∧
      ∃ t, exec (.extract 0x02) (mid .entry v10) = .next t) :=
  ⟨⟨rfl, fun l h => (by cases h), _, rfl⟩, rfl, by decide, _, rfl⟩

/-- Buffers of the three results. -/
theorem witness_CallIsNextFrame :
    ((mid .entry v2).ph = .entry ∧ (mid .entry v2).frm = none ∧ nextFrame (mid .entry v2).buf = (.frame v2, [])) ∧
    ((mid .entry [0x55, 0xAA]).ph = .entry ∧ nextFrame (mid .entry [0x55, 0xAA]).buf = (.nothing, [])) ∧
    ((mid .entry [0x00, 0xC8]).ph = .entry ∧ nextFrame (mid .entry [0x00, 0xC8]).buf = (.needMore, [0xC8])) := by decide

theorem witness_SyncMakesProgress :
    syncChoice (mid .scan []) = .step .clear ∧ ∃ t, exec .clear (mid .scan []) = .next t := ⟨by decide, _, rfl⟩

theorem witness_FullBufferNeverHolds :
    ∃ cap, (capped 64).cfg.bufCap = some cap ∧ cap.val ≤ (capped 64).buf.length := ⟨_, rfl, by decide⟩

theorem witness_OneByteBufferThreeWays :
    ((mid .entry [0x55]).buf = [0x55] ∧ (mid .entry [0x55]).ph = .entry) ∧
    ((mid .scan [0x55]).buf = [0x55] ∧ (mid .scan [0x55]).ph = .scan ∧ 0x55#8 ≠ 0xC8#8) ∧
    ((mid .scan [0xC8]).buf = [0xC8] ∧ (mid .scan [0xC8]).ph = .scan) := by decide

theorem witness_DecodeWritesOneEvent :
    (holding v2).frm = some v2 ∧ (holding v2).evt = none ∧ frameOk v2 = true := by decide

theorem witness_DecodeRunsTheSelectedRow :
    ((holding v2).frm = some v2 ∧ (holding v2).evt = none ∧ decodeFrame v2 = .instr (.battery 0x00F0 [])) ∧
    ((holding []).frm = some [] ∧ (holding []).evt = none ∧ frameOk [] = false) := by decide

theorem witness_GpsFrameGivesItsFields :
    (List.replicate 45 (0 : Byte)).length ≤ 45 ∧
    v1 = mkFrame 0x02#8 (gpsPayload 0x1683FE08 0xB7084830 0x0168 0x0000 0x07D0 0x0C []) ∧
    (holding v1).frm = some v1 ∧ (holding v1).evt = none := by decide

theorem witness_BatteryFrameGivesTheVoltage :
    (List.replicate 58 (0 : Byte)).length ≤ 58 ∧ v2 = mkFrame 0x08#8 (be16 0x00F0 ++ []) ∧
    (holding v2).frm = some v2 ∧ (holding v2).evt = none := by decide

theorem witness_LinkFrameGivesItsFields :
    (List.replicate 56 (0 : Byte)).length ≤ 56 ∧ v4 = mkFrame 0x14#8 ([0x5A, 0x60, 0x64, 0xF6] ++ []) ∧
    (holding v4).frm = some v4 ∧ (holding v4).evt = none := by decide

theorem witness_AttitudeFrameGivesItsFields :
    (List.replicate 54 (0 : Byte)).length ≤ 54 ∧
    v5 = mkFrame 0x1E#8 (be16 0x03E8 ++ be16 0xF830 ++ be16 0x7AB8 ++ []) ∧
    (holding v5).frm = some v5 ∧ (holding v5).evt = none := by decide

theorem witness_FlightModeFrameGivesItsText :
    (List.replicate 60 (0 : Byte)).length ≤ 60 ∧ v6 = mkFrame 0x21#8 [0x41, 0x43, 0x52, 0x4F, 0x00] ∧
    (holding v6).frm = some v6 ∧ (holding v6).evt = none := by decide

theorem witness_UnknownFrameKeepsItsPayload :
    (0x00#8 ≠ 0x02#8 ∧ 0x00#8 ≠ 0x08#8 ∧ 0x00#8 ≠ 0x14#8 ∧ 0x00#8 ≠ 0x1E#8 ∧ 0x00#8 ≠ 0x21#8) ∧
    (List.replicate 60 (0 : Byte)).length ≤ 60 ∧ v10 = mkFrame 0x00#8 [] ∧
    (holding v10).frm = some v10 ∧ (holding v10).evt = none := by decide

theorem witness_BadChecksumKeepsTheFrame :
    frameOk v2Bad = true ∧ crc8 (slice v2Bad 2 (v2Bad.length - 1)) ≠ byteAt v2Bad (v2Bad.length - 1) ∧
    (holding v2Bad).frm = some v2Bad ∧ (holding v2Bad).evt = none := by decide

/-- Each type one byte short of its least payload. -/
theorem witness_ShortPayloadGivesItsType :
    (v14 = mkFrame 0x02#8 (framePayload v14) ∧ (framePayload v14).length = 14) ∧
    (v12 = mkFrame 0x08#8 [0x01] ∧ (holding v12).frm = some v12 ∧ (holding v12).evt = none) ∧
    v15 = mkFrame 0x14#8 [0x5A, 0x60, 0x64] ∧ v17 = mkFrame 0x1E#8 [0x03, 0xE8, 0xF8, 0x30, 0x7A] := by decide

/-- A frame for each line of the table, at the least payload sizes and one below. -/
theorem witness_OutcomeTableIsComplete :
    (frameOk v2Bad = true ∧ crcOk v2Bad = false) ∧
    (frameOk v14 = true ∧ crcOk v14 = true ∧ frameType v14 = 0x02#8 ∧ (framePayload v14).length ≤ 14) ∧
    (frameOk v1 = true ∧ crcOk v1 = true ∧ frameType v1 = 0x02#8 ∧ 15 ≤ (framePayload v1).length) ∧
    (frameOk v12 = true ∧ crcOk v12 = true ∧ frameType v12 = 0x08#8 ∧ (framePayload v12).length ≤ 1) ∧
    (frameOk v2 = true ∧ crcOk v2 = true ∧ frameType v2 = 0x08#8 ∧ 2 ≤ (framePayload v2).length) ∧
    (frameOk v15 = true ∧ crcOk v15 = true ∧ frameType v15 = 0x14#8 ∧ (framePayload v15).length ≤ 3) ∧
    (frameOk v4 = true ∧ crcOk v4 = true ∧ frameType v4 = 0x14#8 ∧ 4 ≤ (framePayload v4).length) ∧
    (frameOk v17 = true ∧ crcOk v17 = true ∧ frameType v17 = 0x1E#8 ∧ (framePayload v17).length ≤ 5) ∧
    (frameOk v5 = true ∧ crcOk v5 = true ∧ frameType v5 = 0x1E#8 ∧ 6 ≤ (framePayload v5).length) ∧
    (frameOk v6 = true ∧ crcOk v6 = true ∧ frameType v6 = 0x21#8) ∧
    (frameOk v10 = true ∧ crcOk v10 = true ∧ recognisedType (frameType v10) = false) := by decide

/-- An event of each kind. -/
theorem witness_EventFieldsKeepTheirRanges :
    decodeEvent Config.default v1 = some (.gps 377749000 (-1224194000) 360 2000 12) ∧
    decodeEvent Config.default v2 = some (.battery 240) ∧
    decodeEvent Config.default v4 = some (.linkStatistics 90 96 100 (-10)) ∧
    decodeEvent Config.default v5 = some (.attitude 1000 (-2000) 31416) ∧
    decodeEvent Config.default v6 = some (.flightMode [0x41, 0x43, 0x52, 0x4F]) ∧
    decodeEvent Config.default v3 = some (.unknownPacket 0xFF [0xDE, 0xAD, 0xBE, 0xEF]) ∧
    decodeEvent Config.default v2Bad = some (.checksumMismatch v2Bad) ∧
    decodeEvent Config.default v12 = some (.malformedPayload 0x08) := by decide

/-- Two states with the same frame and different buffers. -/
theorem witness_DecodeLeavesTheBuffer :
    (∃ t, exec .decode (holding v2) = .next t) ∧
    ∃ t, (holding v2).frm = { mid .scan [0xC8] with frm := some v2 }.frm ∧ (holding v2).frm ≠ none ∧
      (holding v2).cfg = { mid .scan [0xC8] with frm := some v2 }.cfg ∧ (holding v2).evt = none ∧
      { mid .scan [0xC8] with frm := some v2 }.evt = none ∧
      exec .decode { mid .scan [0xC8] with frm := some v2 } = .next t :=
  ⟨⟨_, rfl⟩, _, rfl, by decide, rfl, rfl, rfl, rfl⟩

/-- Every setting of the two flags occurs. -/
theorem witness_FlightModeTextTrims :
    (Config.default.fmNulCut = false ∧ Config.default.fmCtrlStrip = true) ∧
    { Config.default with fmNulCut := true, fmCtrlStrip := false }.fmNulCut = true ∧
    { Config.default with fmNulCut := true, fmCtrlStrip := false }.fmCtrlStrip = false := by decide

theorem witness_TakeHandsOverTheEvent :
    { State.reset with evt := some ⟨.battery 240, v2⟩ }.evt = some ⟨.battery 240, v2⟩ ∧ State.reset.evt = none := by
  decide

theorem witness_PortCarriesTheEvent :
    (evtOk { State.reset with evt := some ⟨.battery 240, v2⟩ } = true ∧
      { State.reset with evt := some ⟨.battery 240, v2⟩ }.evt = some ⟨.battery 240, v2⟩) ∧
    (State.reset.evt = none ∨ false = true) ∧
    ({ State.reset with evt := some ⟨.battery 240, v2⟩ }.evt = none ∨ true = true) := by decide

theorem witness_PulsesBelongToTheStep :
    (∃ t, exec .clear (mid .scan [0x55]) = .next t ∧ t.cleared = true ∧ t.dropCount = some 1) ∧
    (∃ t, exec (.trim 1) (mid .scan [0x00, 0xC8]) = .next t ∧ t.dropCount = some 1) ∧
    ∃ t, exec (.drop1 0x00) (mid .entry [0xC8, 0x00]) = .next t ∧ t.dropCount = some 1 :=
  ⟨⟨_, rfl, rfl, rfl⟩, ⟨_, rfl, rfl⟩, _, rfl, rfl⟩

/-- A turn of each agent, a turn with nothing to do, and an empty schedule. -/
theorem witness_StepRunsTheDecodedInstruction :
    (∃ s : State, s.sched = [.src] ∧ s.inp = [0xC8] ∧ inReady s = true) ∧
    (∃ s : State, s.sched = [.sync] ∧ decodeSync s.ph s.buf s.frm.isSome = .step (.extract 0x02)) ∧
    (∃ s : State, s.sched = [.dec] ∧ s.frm = some v2 ∧ s.evt = none ∧ decodeFrame v2 = .instr (.battery 0x00F0 [])) ∧
    (∃ s : State, s.sched = [.sink] ∧ s.evt ≠ none) ∧ (∃ s : State, s.sched = [.host]) ∧
    (∃ s : State, s.sched = [.dec] ∧ enabled .dec s = false) ∧
    ∃ s : State, s.sched = [] ∧ (enabled .sync s = true ∨ enabled .dec s = true) :=
  ⟨⟨{ State.reset with sched := [.src], inp := [0xC8] }, by decide⟩,
    ⟨{ mid .entry v10 with sched := [.sync] }, by decide⟩,
    ⟨{ holding v2 with sched := [.dec] }, by decide⟩,
    ⟨{ State.reset with sched := [.sink], evt := some ⟨.battery 240, v2⟩ }, by decide⟩,
    ⟨{ State.reset with sched := [.host] }, rfl⟩, ⟨{ State.reset with sched := [.dec] }, by decide⟩,
    holding v2, by decide⟩

theorem witness_StepKeepsTheRegisters :
    (regsOk { mid .entry v10 with sched := [.sync] } = true ∧
      ∃ t, step { mid .entry v10 with sched := [.sync] } = .next t) ∧
    (regsOk { mid .scan [0xC8, 0x00] with lastSync := some .trim, sched := [.sync] } = true ∧
      ∃ t, step { mid .scan [0xC8, 0x00] with lastSync := some .trim, sched := [.sync] } = .next t) :=
  ⟨⟨by decide, _, rfl⟩, by decide, _, rfl⟩

/-- (I4) refuses a state in which a TRIM left something else at the front. -/
theorem test_trim_invariant_refuses :
    regsOk { mid .scan [0x55, 0xC8] with lastSync := some .trim } = false ∧
    (nextOf (exec (.trim 2) (mid .entry [0x55, 0xAA, 0xC8, 0x04]))).map trimOk = some true := by decide

/-- The bytes of V10 extracted, and a byte of the next frame in BUF. -/
def afterV10 : State :=
  { State.reset with
    buf := [0xC8], frm := some v10, pos := 4, inHist := v10 ++ [0xC8], frameHist := [(0, v10)],
    statusHist := [.frame], sched := [.dec] }

theorem witness_StepKeepsTheStream :
    streamOk afterV10 ∧ framesOk afterV10 ∧ settledOk afterV10 ∧ ∃ t, step afterV10 = .next t :=
  ⟨⟨by decide, by decide⟩, ⟨by decide, by decide, by decide⟩, fun _ => rfl, _, rfl⟩

theorem witness_StepKeepsEventsInOrder : eventsOk afterV10 ∧ ∃ t, step afterV10 = .next t :=
  ⟨(by unfold eventsOk; decide), _, rfl⟩

/-- The stream V10, `C8 00 55`, drained, with the last byte discarded (the whole stream fed at once) or held (the last
byte fed later). -/
def drained (pos : Nat) (buf : List Byte) : State :=
  { State.reset with
    buf := buf, pos := pos, inHist := v10 ++ [0xC8, 0x00, 0x55], frameHist := [(0, v10)],
    outHist := [.unknownPacket 0x00 []] }

theorem witness_SameBytesSameFrames :
    (streamOk (drained 7 []) ∧ settledOk (drained 7 []) ∧ eventsOk (drained 7 []) ∧
      syncChoice (drained 7 []) = .hold) ∧
    (streamOk (drained 6 [0x55]) ∧ settledOk (drained 6 [0x55]) ∧ eventsOk (drained 6 [0x55]) ∧
      syncChoice (drained 6 [0x55]) = .hold) ∧
    (drained 7 []).inHist = (drained 6 [0x55]).inHist ∧ (drained 7 []).cfg = (drained 6 [0x55]).cfg ∧
    (drained 7 []).frm = none ∧ (drained 6 [0x55]).frm = none ∧
    (drained 7 []).evt = none ∧ (drained 6 [0x55]).evt = none :=
  ⟨⟨⟨by decide, by decide⟩, (fun ys => by cases ys <;> rfl), (by unfold eventsOk; decide), by decide⟩,
    ⟨⟨by decide, by decide⟩, (fun ys => by cases ys <;> rfl), (by unfold eventsOk; decide), by decide⟩,
    rfl, rfl, rfl, rfl, rfl, rfl⟩

/-- The noise of program P2, which holds the sync byte twice. -/
theorem witness_HarmlessNoiseYieldsTheFrame :
    frameOk v2 = true ∧ harmlessBefore 0xC8#8 [0x55, 0xC8, 0x00, 0xC8] = true ∧ harmlessBefore 0xC8#8 [0xAA] = true := by
  decide

theorem witness_BlockSettlesByItself :
    (mid .entry v2).sched = [] ∧ frmOk (mid .entry v2) = true ∧ enabled .sync (mid .entry v2) = true := by decide

theorem witness_StepAlwaysAnswers :
    frmOk (holding v2) = true ∧ ∃ r, step { holding [] with sched := [.dec] } = .refused r := ⟨by decide, _, rfl⟩

theorem witness_QuiescentWaitsForInput :
    quiescent State.reset = true ∧ quiescent (mid .entry (0xC8 :: 0x3E :: List.replicate 61 0)) = true := by decide

end Sys2Proof.Tests
end

/-! ## The state: what is enabled when little is held (10_state.md R27, R34) -/

namespace Sys2Proof.Machine

section ShortBuffer

variable {s : State} (hph : s.ph = .entry) (hlen : s.buf.length < 2)
include hph hlen

/-- Step 1 of the call: with fewer than two bytes none begins, whether or not FRM is free (40_frame_assembler.md R84,
R89). -/
theorem syncChoice_eq_hold_of_short : syncChoice s = .hold := by
  simp [syncChoice, decodeSync, hph, hlen]

theorem enabled_sync_eq_false_of_short : enabled .sync s = false := by
  simp [enabled, syncChoice_eq_hold_of_short hph hlen]

theorem needMore_of_short : needMore s = true := by
  simp [needMore, hph, hlen]

end ShortBuffer

theorem enabled_dec_eq_false_of_frm_none {s : State} (h : s.frm = none) : enabled .dec s = false := by
  simp [enabled, canDecode, frmValid, h]

theorem enabled_sink_eq_false_of_evt_none {s : State} (h : s.evt = none) : enabled .sink s = false := by
  simp [enabled, evtValid, h]

/-- An unbounded BUF has room whatever it holds (10_state.md R22). -/
theorem hasRoom_of_unbounded {s : State} (h : s.cfg.bufCap = none) : hasRoom s = true := by
  simp [hasRoom, h]

theorem inReady_of_entry {s : State} (hph : s.ph = .entry) (hroom : hasRoom s = true) : inReady s = true := by
  simp [inReady, hph, hroom]

/-- FEED with its guard true: the step of 40_frame_assembler.md R80. -/
theorem exec_feed_of_inReady {s : State} (h : inReady s = true) (b : Byte) :
    exec (.feed b) s = .next (s.append b) :=
  guarded_pos h _ _

theorem inReady_reset : inReady State.reset = true :=
  inReady_of_entry rfl (hasRoom_of_unbounded rfl)

/-- Settles O50: the values are those of State.reset, and with BUF empty in ENTRY, FRM and EVT free and BUF unbounded,
FEED alone has its guard. -/
theorem resetStateIsEmpty : Obligations.ResetStateIsEmpty := by
  have hbuf : State.reset.buf.length < 2 := Nat.zero_lt_two
  refine ⟨rfl, rfl, rfl, rfl, rfl, rfl, rfl, rfl, rfl, needMore_of_short rfl hbuf, inReady_reset,
    enabled_sync_eq_false_of_short rfl hbuf, enabled_dec_eq_false_of_frm_none rfl,
    enabled_sink_eq_false_of_evt_none rfl, fun b => ?_⟩
  exact ⟨State.reset.append b, exec_feed_of_inReady inReady_reset b, State.append_buf State.reset b⟩

end Sys2Proof.Machine

/-! ## Payload integers (20_memory.md R46) -/

namespace Sys2Proof.Machine

/-- The 16 bits lose nothing: two bytes assembled stay below `2 ^ 16`. -/
theorem u16be_toNat (p : List Byte) (o : Nat) :
    (u16be p o).toNat = (byteAt p o).toNat * 2 ^ 8 + (byteAt p (o + 1)).toNat := by
  have h0 := (byteAt p o).isLt
  have h1 := (byteAt p (o + 1)).isLt
  rw [u16be, BitVec.toNat_ofNat, Nat.mod_eq_of_lt (by omega)]

/-- The 32 bits lose nothing: four bytes assembled stay below `2 ^ 32`. -/
theorem u32be_toNat (p : List Byte) (o : Nat) :
    (u32be p o).toNat = (byteAt p o).toNat * 2 ^ 24 + (byteAt p (o + 1)).toNat * 2 ^ 16 +
      (byteAt p (o + 2)).toNat * 2 ^ 8 + (byteAt p (o + 3)).toNat := by
  have h0 := (byteAt p o).isLt
  have h1 := (byteAt p (o + 1)).isLt
  have h2 := (byteAt p (o + 2)).isLt
  have h3 := (byteAt p (o + 3)).isLt
  rw [u32be, BitVec.toNat_ofNat, Nat.mod_eq_of_lt (by omega)]

/-- Settles O5: the assembled bytes fit their width, so nothing wraps, and each signed reading is `sext` at the width
of its field, whose powers of two are the numerals of the clause. -/
theorem multiByteFieldsAreBigEndian : Obligations.MultiByteFieldsAreBigEndian :=
  ⟨fun p o => ⟨u16be_toNat p o, u32be_toNat p o⟩, fun _ => rfl, fun _ => rfl, fun _ => rfl⟩

end Sys2Proof.Machine

/-! ## The checksum (41_checksum.md R101 to R108) -/

namespace Sys2Proof.Machine

/-- One shift step as 41_checksum.md R101 writes it on numbers: bit 7 tested first, the result cut to 8 bits. -/
def crcShiftNat (a : Nat) : Nat := if a.testBit 7 then ((a <<< 1) ^^^ 0xD5) % 256 else (a <<< 1) % 256

/-- The cut to 8 bits comes last on numbers and with the shift on bytes; it is the same, since the polynomial has 8
bits. -/
theorem crcShift_toNat (a : Byte) : (crcShift a).toNat = crcShiftNat a.toNat := by
  have hbit : a.getLsbD 7 = a.toNat.testBit 7 := rfl
  have hcut : (a.toNat <<< 1 ^^^ 0xD5) % 2 ^ 8 = (a.toNat <<< 1) % 2 ^ 8 ^^^ 0xD5 := Nat.xor_mod_two_pow
  unfold crcShift crcShiftNat
  rw [hbit]
  split
  · rw [BitVec.toNat_xor, BitVec.toNat_shiftLeft]
    exact hcut.symm
  · exact BitVec.toNat_shiftLeft

theorem crcShifts_toNat (n : Nat) (a : Byte) : (Nat.repeat crcShift n a).toNat = Nat.repeat crcShiftNat n a.toNat := by
  induction n with
  | zero => rfl
  | succ n ih =>
    calc (crcShift (Nat.repeat crcShift n a)).toNat
        = crcShiftNat (Nat.repeat crcShift n a).toNat := crcShift_toNat _
      _ = crcShiftNat (Nat.repeat crcShiftNat n a.toNat) := by rw [ih]

theorem crc8Byte_toNat (acc b : Byte) :
    (crc8Byte acc b).toNat = Nat.repeat crcShiftNat 8 (acc.toNat ^^^ b.toNat) := by
  rw [crc8Byte, crcShifts_toNat, BitVec.toNat_xor]

/-- One byte of checksum depends on the accumulator and the byte through their exclusive-or alone. -/
theorem crc8Byte_eq_zero_xor (acc b : Byte) : crc8Byte acc b = crc8Byte 0x00#8 (acc ^^^ b) := by
  rw [crc8Byte, crc8Byte, BitVec.zero_xor]

/-- Settles O7: each shift step agrees with its form on numbers, hence any number of them do, by
induction. -/
theorem crcByteIsShiftAndXor : Obligations.CrcByteIsShiftAndXor :=
  ⟨crc8Byte_toNat, crc8Byte_eq_zero_xor, rfl⟩

/-- A byte folded into an equal accumulator clears it. -/
@[simp] theorem crc8Byte_self (b : Byte) : crc8Byte b b = 0x00#8 := by
  rw [crc8Byte_eq_zero_xor, BitVec.xor_self]
  rfl

/-- Only an equal byte clears the accumulator, since different accumulators stay different over the same byte. -/
theorem crc8Byte_eq_zero_iff (acc b : Byte) : crc8Byte acc b = 0x00#8 ↔ acc = b := by
  rw [← crc8Byte_self b]
  exact (crc8Byte_left_injective b).eq_iff

theorem crc8_append_singleton (s : List Byte) (b : Byte) : crc8 (s ++ [b]) = crc8Byte (crc8 s) b :=
  crc8_append s [b]

/-- A slice taken one byte further. -/
theorem slice_succ {s : List Byte} {a b : Nat} (hab : a ≤ b) (hb : b < s.length) :
    slice s a (b + 1) = slice s a b ++ [byteAt s b] := by
  have hget : (s.drop a)[b - a]? = some (byteAt s b) := by
    rw [List.getElem?_drop, Nat.add_sub_cancel' hab, getElem?_eq_some_byteAt hb]
  rw [slice, slice, Nat.succ_sub hab, List.take_add_one, hget, Option.toList_some]

/-- The fold over everything behind the length byte takes the crc byte last. -/
theorem crc8_slice_length {f : List Byte} (hlen : 3 ≤ f.length) :
    crc8 (slice f 2 f.length) = crc8Byte (crc8 (slice f 2 (f.length - 1))) (byteAt f (f.length - 1)) := by
  have hlast : f.length - 1 + 1 = f.length := by omega
  have hslice := slice_succ (s := f) (a := 2) (b := f.length - 1) (by omega) (by omega)
  rw [hlast] at hslice
  rw [hslice, crc8_append_singleton]

/-- Settles O9: the crc byte is the last one folded in, and it leaves zero exactly when it equals the checksum before
it. -/
theorem crcOkIffWholeFoldIsZero : Obligations.CrcOkIffWholeFoldIsZero := by
  intro f hlen
  refine ⟨crcOk_iff f, ?_⟩
  rw [crc8_slice_length (by omega), crc8Byte_eq_zero_iff]
  exact crcOk_iff f

set_option maxRecDepth 4000 in
/-- Settles O6: the 256 entries, evaluated by the shift steps on numbers. -/
theorem crcTableIsTheSpecs : Obligations.CrcTableIsTheSpecs := by
  unfold Obligations.CrcTableIsTheSpecs
  simp only [crc8Byte_toNat]
  decide

/-- A leading zero byte is not detected (41_checksum.md R106 b): it leaves the initial accumulator as it is. -/
theorem crc8_cons_zero (s : List Byte) : crc8 (0x00#8 :: s) = crc8 s := by
  rw [crc8, crc8, List.foldl_cons, crc8Byte_self]

/-- The checksum of the Battery frame of 41_checksum.md R108, one byte at a time. -/
theorem crc8_battery_frame : crc8 [0x08, 0x00, 0xF0] = 0x62#8 := by
  have fold_08 : crc8Byte crcInit 0x08 = 0x29 := by decide
  have fold_00 : crc8Byte 0x29 0x00 = 0x58 := by decide
  have fold_F0 : crc8Byte 0x58 0xF0 = 0x62#8 := by decide
  rw [crc8, List.foldl_cons, fold_08, List.foldl_cons, fold_00, List.foldl_cons, fold_F0, List.foldl_nil]

set_option maxRecDepth 4000 in
/-- The standard check string "123456789" of R108. -/
theorem crc8_check_string : crc8 [0x31, 0x32, 0x33, 0x34, 0x35, 0x36, 0x37, 0x38, 0x39] = 0xBC#8 := by
  decide

/-- Settles O8: a left fold takes the last byte last, a zero byte leaves the accumulator zero, and the two worked values
are those of R108. -/
theorem crcFoldsInOffsetOrder : Obligations.CrcFoldsInOffsetOrder :=
  ⟨crc8_nil, crc8_append_singleton, crc8_cons_zero, crc8_battery_frame, crc8_check_string⟩

end Sys2Proof.Machine

/-! ## The dispatcher (42_dispatch.md R111 to R118) -/

namespace Sys2Proof.Machine

/-- The event of a checksum-valid frame of type `t` and payload `p`: checks 2 and 3 of 42_dispatch.md R111, the event
side of `decodeBody`. -/
def bodyEvent (cfg : Config) (t : Byte) (p : List Byte) : Event :=
  if t = 0x02#8 then (if p.length < 15 then .malformedPayload t else decodeGps p)
  else if t = 0x08#8 then (if p.length < 2 then .malformedPayload t else decodeBattery p)
  else if t = 0x14#8 then (if p.length < 4 then .malformedPayload t else decodeLink p)
  else if t = 0x1E#8 then (if p.length < 6 then .malformedPayload t else decodeAttitude p)
  else if t = 0x21#8 then decodeFlightMode cfg p
  else .unknownPacket t p

/-- Check 1 fails: the type byte is not looked at (R112). -/
theorem decodeEvent_of_crcOk_false (cfg : Config) {f : List Byte} (hok : frameOk f = true) (hcrc : crcOk f = false) :
    decodeEvent cfg f = some (.checksumMismatch f) := by
  have hne := (crcOk_eq_false_iff f).mp hcrc
  simp [decodeEvent, hok, hne]

/-- Check 1 passes: type and payload alone decide. -/
theorem decodeEvent_of_crcOk (cfg : Config) {f : List Byte} (hok : frameOk f = true) (hcrc : crcOk f = true) :
    decodeEvent cfg f = some (bodyEvent cfg (frameType f) (framePayload f)) := by
  have heq := (crcOk_iff f).mp hcrc
  simp only [decodeEvent, hok, heq, Bool.not_true, Bool.false_eq_true, ne_eq, not_true_eq_false, if_false]
  unfold bodyEvent frameType framePayload
  split_ifs <;> rfl

/-- Check 3 fails (R113, R115): no payload is shorter than a least size of 0, so the type is one of the four that have
a least size, and the event carries it alone. -/
theorem bodyEvent_of_short (cfg : Config) {t : Byte} {p : List Byte} (h : p.length < minPayload t) :
    bodyEvent cfg t p = .malformedPayload t := by
  unfold minPayload at h
  split_ifs at h with hgps hbattery hlink hattitude
  · simp [bodyEvent, hgps, h]
  · simp [bodyEvent, hbattery, h]
  · simp [bodyEvent, hlink, h]
  · simp [bodyEvent, hattitude, h]
  · exact absurd h (Nat.not_lt_zero _)

section LongEnough

variable (cfg : Config) {p : List Byte}

theorem bodyEvent_gps (h : 15 ≤ p.length) : bodyEvent cfg 0x02#8 p = decodeGps p := by
  simp [bodyEvent, Nat.not_lt.mpr h]

theorem bodyEvent_battery (h : 2 ≤ p.length) : bodyEvent cfg 0x08#8 p = decodeBattery p := by
  simp [bodyEvent, Nat.not_lt.mpr h]

theorem bodyEvent_link (h : 4 ≤ p.length) : bodyEvent cfg 0x14#8 p = decodeLink p := by
  simp [bodyEvent, Nat.not_lt.mpr h]

theorem bodyEvent_attitude (h : 6 ≤ p.length) : bodyEvent cfg 0x1E#8 p = decodeAttitude p := by
  simp [bodyEvent, Nat.not_lt.mpr h]

end LongEnough

/-- Flight Mode has no least size (R113). -/
theorem bodyEvent_flightMode (cfg : Config) (p : List Byte) : bodyEvent cfg 0x21#8 p = decodeFlightMode cfg p := by
  simp [bodyEvent]

/-- Check 2 fails: the default of the branch (R114). -/
theorem bodyEvent_unknown (cfg : Config) {t : Byte} (p : List Byte) (hgps : t ≠ 0x02#8) (hbattery : t ≠ 0x08#8)
    (hlink : t ≠ 0x14#8) (hattitude : t ≠ 0x1E#8) (hflight : t ≠ 0x21#8) :
    bodyEvent cfg t p = .unknownPacket t p := by
  simp [bodyEvent, hgps, hbattery, hlink, hattitude, hflight]

/-! The signed fields of each decode as the two's-complement values of their patterns. -/

theorem decodeGps_eq_toInt (p : List Byte) :
    decodeGps p = .gps (u32be p 0).toInt (u32be p 4).toInt (u16be p 8).toNat (u16be p 12).toNat
      (byteAt p 14).toNat := by
  rw [decodeGps, sext_eq_toInt (by decide), sext_eq_toInt (by decide)]

theorem decodeLink_eq_toInt (p : List Byte) :
    decodeLink p = .linkStatistics (byteAt p 0).toNat (byteAt p 1).toNat (byteAt p 2).toNat (byteAt p 3).toInt := by
  rw [decodeLink, sext_eq_toInt (by decide)]

theorem decodeAttitude_eq_toInt (p : List Byte) :
    decodeAttitude p = .attitude (u16be p 0).toInt (u16be p 2).toInt (u16be p 4).toInt := by
  rw [decodeAttitude, sext_eq_toInt (by decide), sext_eq_toInt (by decide), sext_eq_toInt (by decide)]

theorem framePayload_length_le {f : List Byte} (hok : frameOk f = true) : (framePayload f).length ≤ 60 := by
  obtain ⟨-, hmax, -, -⟩ := (frameOk_iff f).mp hok
  rw [framePayload_length hok]
  omega

/-- Settles O40: check 1 decides between the first row and the rest; for the rest the event is a function of type and
payload, and each row is one case of it. -/
theorem outcomeTableIsComplete : Obligations.OutcomeTableIsComplete := by
  intro cfg f hok
  refine ⟨decodeEvent_of_crcOk_false cfg hok, fun hcrc => ?_, framePayload_length_le hok⟩
  have hbody {t : Byte} {e : Event} (ht : frameType f = t) (he : bodyEvent cfg t (framePayload f) = e) :
      decodeEvent cfg f = some e := by
    rw [decodeEvent_of_crcOk cfg hok hcrc, ht, he]
  have hshort {t : Byte} (ht : frameType f = t) (hlt : (framePayload f).length < minPayload t) :
      decodeEvent cfg f = some (.malformedPayload t) :=
    hbody ht (bodyEvent_of_short cfg hlt)
  refine ⟨?gpsShort, ?gps, ?batteryShort, ?battery, ?linkShort, ?link, ?attitudeShort, ?attitude, ?flightMode,
    ?unknown⟩
  case gpsShort => exact fun ht hlen => hshort ht (Nat.lt_succ_of_le hlen)
  case gps => exact fun ht hlen => hbody ht ((bodyEvent_gps cfg hlen).trans (decodeGps_eq_toInt _))
  case batteryShort => exact fun ht hlen => hshort ht (Nat.lt_succ_of_le hlen)
  case battery => exact fun ht hlen => hbody ht (bodyEvent_battery cfg hlen)
  case linkShort => exact fun ht hlen => hshort ht (Nat.lt_succ_of_le hlen)
  case link => exact fun ht hlen => hbody ht ((bodyEvent_link cfg hlen).trans (decodeLink_eq_toInt _))
  case attitudeShort => exact fun ht hlen => hshort ht (Nat.lt_succ_of_le hlen)
  case attitude => exact fun ht hlen => hbody ht ((bodyEvent_attitude cfg hlen).trans (decodeAttitude_eq_toInt _))
  case flightMode => exact fun ht => hbody ht (bodyEvent_flightMode cfg _)
  case unknown => exact fun h1 h2 h3 h4 h5 => hbody rfl (bodyEvent_unknown cfg _ h1 h2 h3 h4 h5)

end Sys2Proof.Machine

/-! ## The payload decodes (43_payload_decode.md R120 to R131) -/

namespace Sys2Proof.Machine

/-! What `decode` can answer. -/

/-- `decode` answers on a candidate frame only: by check 1, or by the body. -/
theorem decodeEvent_eq_some {cfg : Config} {f : List Byte} {e : Event} (h : decodeEvent cfg f = some e) :
    frameOk f = true ∧ (e = .checksumMismatch f ∨ e = bodyEvent cfg (frameType f) (framePayload f)) := by
  have hok : frameOk f = true := by
    by_contra hbad
    simp [decodeEvent, hbad] at h
  refine ⟨hok, ?_⟩
  cases hcrc : crcOk f with
  | false =>
    rw [decodeEvent_of_crcOk_false cfg hok hcrc, Option.some.injEq] at h
    exact .inl h.symm
  | true =>
    rw [decodeEvent_of_crcOk cfg hok hcrc, Option.some.injEq] at h
    exact .inr h.symm

theorem bodyEvent_cases (cfg : Config) (t : Byte) (p : List Byte) :
    bodyEvent cfg t p = .malformedPayload t ∨ bodyEvent cfg t p = decodeGps p ∨ bodyEvent cfg t p = decodeBattery p ∨
      bodyEvent cfg t p = decodeLink p ∨ bodyEvent cfg t p = decodeAttitude p ∨
      bodyEvent cfg t p = decodeFlightMode cfg p ∨ bodyEvent cfg t p = .unknownPacket t p := by
  unfold bodyEvent
  split_ifs <;> simp

/-! The Flight Mode text: each trim of R128 only takes bytes off the end. -/

theorem dropTrailing_prefix (n : Nat) (p : List Byte) : dropTrailing n p <+: p := List.take_prefix _ _

theorem cutAtNul_prefix (p : List Byte) : cutAtNul p <+: p := by
  induction p with
  | nil => exact List.nil_prefix
  | cons b bs ih =>
    rw [cutAtNul]
    split
    · exact List.nil_prefix
    · exact (List.prefix_cons_inj b).mpr ih

theorem stripControl_prefix (p : List Byte) : stripControl p <+: p := by
  induction p with
  | nil => exact List.nil_prefix
  | cons b bs ih =>
    rw [stripControl]
    split
    · exact List.nil_prefix
    · exact (List.prefix_cons_inj b).mpr ih

theorem flightModeText_prefix (cfg : Config) (p : List Byte) : flightModeText cfg p <+: p := by
  have hdrop := dropTrailing_prefix cfg.fmFixedTrim.val p
  have hcut := (cutAtNul_prefix (dropTrailing cfg.fmFixedTrim.val p)).trans hdrop
  unfold flightModeText
  split_ifs
  · exact (stripControl_prefix _).trans hcut
  · exact hcut
  · exact (stripControl_prefix _).trans hdrop
  · exact hdrop

/-! The derived fields, exact: each is the raw integer over a constant, which multiplies back to it. -/

theorem derived_gps_exact (lat lon : Int) (groundspeed altitude satellites : Nat) :
    ∃ (a b v : Rat) (m : Int),
      derived (.gps lat lon groundspeed altitude satellites) = some (.gps a b v m satellites) ∧
      a * 10000000 = lat ∧ b * 10000000 = lon ∧ v * 36 = groundspeed ∧ m + 1000 = altitude :=
  ⟨_, _, _, _, rfl, div_mul_cancel₀ _ (by norm_num), div_mul_cancel₀ _ (by norm_num),
    div_mul_cancel₀ _ (by norm_num), Int.sub_add_cancel _ _⟩

theorem derived_battery_exact (voltage : Nat) :
    ∃ v : Rat, derived (.battery voltage) = some (.battery v) ∧ v * 10 = voltage :=
  ⟨_, rfl, div_mul_cancel₀ _ (by norm_num)⟩

theorem derived_attitude_exact (pitch roll yaw : Int) :
    ∃ a b c : Rat, derived (.attitude pitch roll yaw) = some (.attitude a b c) ∧
      a * 10000 = pitch ∧ b * 10000 = roll ∧ c * 10000 = yaw :=
  ⟨_, _, _, rfl, div_mul_cancel₀ _ (by norm_num), div_mul_cancel₀ _ (by norm_num), div_mul_cancel₀ _ (by norm_num)⟩

/-- Settles O48: the general clauses say that each quotient multiplies back to its raw integer, and the examples are
those quotients in lowest terms. -/
theorem derivedFieldsAreExact : Obligations.DerivedFieldsAreExact := by
  refine ⟨derived_gps_exact, derived_battery_exact, fun _ _ _ _ => rfl, derived_attitude_exact, ?gps, ?battery,
    ?attitude⟩
  case gps => norm_num [derived]
  case battery => norm_num [derived]
  case attitude => norm_num [derived]

/-! The ranges of R131: the raw fields from the widths of their patterns, the derived ones from the raw ones. -/

/-- The range of a signed field of `w` bits, by its greatest value `m`. -/
theorem sext_range {w m : Nat} (hw : 0 < w) (hm : 2 ^ (w - 1) = m + 1) (v : BitVec w) :
    -((m : Int) + 1) ≤ sext v ∧ sext v ≤ m := by
  have hpow : (2 : Int) ^ (w - 1) = m + 1 := by exact_mod_cast hm
  have hlo := BitVec.le_toInt v
  have hhi := BitVec.toInt_lt (x := v)
  rw [sext_eq_toInt hw]
  omega

theorem sext_range_32 (v : BitVec 32) : -2147483648 ≤ sext v ∧ sext v ≤ 2147483647 :=
  sext_range (m := 2147483647) (by decide) rfl v

theorem sext_range_16 (v : BitVec 16) : -32768 ≤ sext v ∧ sext v ≤ 32767 :=
  sext_range (m := 32767) (by decide) rfl v

theorem sext_range_8 (v : Byte) : -128 ≤ sext v ∧ sext v ≤ 127 :=
  sext_range (m := 127) (by decide) rfl v

/-- An exact quotient keeps the range of what it multiplies back to. -/
theorem quotient_range {q x d lo hi : Rat} (hd : 0 < d) (hq : q * d = x) (hx : lo ≤ x ∧ x ≤ hi) :
    lo / d ≤ q ∧ q ≤ hi / d := by
  rw [div_le_iff₀ hd, le_div_iff₀ hd, hq]
  exact hx

theorem derived_gps_range {lat lon : Int} {groundspeed altitude : Nat} (satellites : Nat)
    (hlat : -2147483648 ≤ lat ∧ lat ≤ 2147483647) (hlon : -2147483648 ≤ lon ∧ lon ≤ 2147483647)
    (hspeed : groundspeed ≤ 65535) (haltitude : altitude ≤ 65535) :
    ∃ a b v m, derived (.gps lat lon groundspeed altitude satellites) = some (.gps a b v m satellites) ∧
      (-2147483648 / 10000000 : Rat) ≤ a ∧ a ≤ 2147483647 / 10000000 ∧
      (-2147483648 / 10000000 : Rat) ≤ b ∧ b ≤ 2147483647 / 10000000 ∧
      0 ≤ v ∧ v ≤ 65535 / 36 ∧ -1000 ≤ m ∧ m ≤ 64535 := by
  obtain ⟨a, b, v, m, hderived, ha, hb, hv, hm⟩ := derived_gps_exact lat lon groundspeed altitude satellites
  obtain ⟨ha_lo, ha_hi⟩ :=
    quotient_range (lo := -2147483648) (hi := 2147483647) (by norm_num) ha (by exact_mod_cast hlat)
  obtain ⟨hb_lo, hb_hi⟩ :=
    quotient_range (lo := -2147483648) (hi := 2147483647) (by norm_num) hb (by exact_mod_cast hlon)
  obtain ⟨hv_lo, hv_hi⟩ :=
    quotient_range (lo := 0) (hi := 65535) (by norm_num) hv ⟨Nat.cast_nonneg _, by exact_mod_cast hspeed⟩
  rw [zero_div] at hv_lo
  exact ⟨a, b, v, m, hderived, ha_lo, ha_hi, hb_lo, hb_hi, hv_lo, hv_hi, by omega, by omega⟩

theorem derived_battery_range {voltage : Nat} (hvoltage : voltage ≤ 65535) :
    ∃ v, derived (.battery voltage) = some (.battery v) ∧ 0 ≤ v ∧ v ≤ 65535 / 10 := by
  obtain ⟨v, hderived, hv⟩ := derived_battery_exact voltage
  obtain ⟨hv_lo, hv_hi⟩ :=
    quotient_range (lo := 0) (hi := 65535) (by norm_num) hv ⟨Nat.cast_nonneg _, by exact_mod_cast hvoltage⟩
  rw [zero_div] at hv_lo
  exact ⟨v, hderived, hv_lo, hv_hi⟩

theorem derived_attitude_range {pitch roll yaw : Int} (hpitch : -32768 ≤ pitch ∧ pitch ≤ 32767)
    (hroll : -32768 ≤ roll ∧ roll ≤ 32767) (hyaw : -32768 ≤ yaw ∧ yaw ≤ 32767) :
    ∃ a b c, derived (.attitude pitch roll yaw) = some (.attitude a b c) ∧
      (-32768 / 10000 : Rat) ≤ a ∧ a ≤ 32767 / 10000 ∧ (-32768 / 10000 : Rat) ≤ b ∧ b ≤ 32767 / 10000 ∧
      (-32768 / 10000 : Rat) ≤ c ∧ c ≤ 32767 / 10000 := by
  obtain ⟨a, b, c, hderived, ha, hb, hc⟩ := derived_attitude_exact pitch roll yaw
  obtain ⟨ha_lo, ha_hi⟩ := quotient_range (lo := -32768) (hi := 32767) (by norm_num) ha (by exact_mod_cast hpitch)
  obtain ⟨hb_lo, hb_hi⟩ := quotient_range (lo := -32768) (hi := 32767) (by norm_num) hb (by exact_mod_cast hroll)
  obtain ⟨hc_lo, hc_hi⟩ := quotient_range (lo := -32768) (hi := 32767) (by norm_num) hc (by exact_mod_cast hyaw)
  exact ⟨a, b, c, hderived, ha_lo, ha_hi, hb_lo, hb_hi, hc_lo, hc_hi⟩

/-- Settles O41: a raw field is a pattern of its width, a text or payload lies within the payload of the frame, and the
derived fields take their ranges from the raw ones. -/
theorem eventFieldsKeepTheirRanges : Obligations.EventFieldsKeepTheirRanges := by
  intro cfg f e h
  obtain ⟨hok, rfl | rfl⟩ := decodeEvent_eq_some h
  case inl =>
    obtain ⟨hmin, hmax, -, -⟩ := (frameOk_iff f).mp hok
    exact ⟨hmin, hmax⟩
  case inr =>
    have hpayload := framePayload_length_le hok
    generalize framePayload f = p at hpayload ⊢
    have hu16 (o : Nat) : (u16be p o).toNat ≤ 65535 := Nat.le_of_lt_succ (u16be p o).isLt
    have hu8 (o : Nat) : (byteAt p o).toNat ≤ 255 := Nat.le_of_lt_succ (byteAt p o).isLt
    rcases bodyEvent_cases cfg (frameType f) p with
      hmalformed | hgps | hbattery | hlink | hattitude | hflightMode | hunknown
    · rw [hmalformed]
      trivial
    · have hlat := sext_range_32 (u32be p 0)
      have hlon := sext_range_32 (u32be p 4)
      rw [hgps]
      exact ⟨hlat.1, hlat.2, hlon.1, hlon.2, hu16 8, hu16 12, hu8 14, derived_gps_range _ hlat hlon (hu16 8) (hu16 12)⟩
    · rw [hbattery]
      exact ⟨hu16 0, derived_battery_range (hu16 0)⟩
    · rw [hlink]
      exact ⟨hu8 0, hu8 1, hu8 2, sext_range_8 (byteAt p 3)⟩
    · have hpitch := sext_range_16 (u16be p 0)
      have hroll := sext_range_16 (u16be p 2)
      have hyaw := sext_range_16 (u16be p 4)
      rw [hattitude]
      exact ⟨hpitch.1, hpitch.2, hroll.1, hroll.2, hyaw.1, hyaw.2, derived_attitude_range hpitch hroll hyaw⟩
    · rw [hflightMode]
      exact (flightModeText_prefix cfg p).length_le.trans hpayload
    · rw [hunknown]
      exact hpayload

end Sys2Proof.Machine

/-! ## The event output (44_event_output.md R141 to R145) -/

namespace Sys2Proof.Machine

/-- One event of each kind, by the code R143 gives it: with it no code of the 3-bit field is left unused. -/
def eventOfKind (k : BitVec 3) : Event :=
  match k.toNat with
  | 0 => .unknownPacket 0 []
  | 1 => .gps 0 0 0 0 0
  | 2 => .battery 0
  | 3 => .linkStatistics 0 0 0 0
  | 4 => .attitude 0 0 0
  | 5 => .flightMode []
  | 6 => .checksumMismatch []
  | _ => .malformedPayload 0

theorem eventKind_eventOfKind : ∀ k : BitVec 3, eventKind (eventOfKind k) = k := by
  decide

/-- The two upper bits are set in the codes 6 and 7 and in no other code. -/
theorem eventKind_upper_bits_eq_three_iff (e : Event) :
    (eventKind e).extractLsb' 1 2 = 3#2 ↔
      (∃ f, e = .checksumMismatch f) ∨ ∃ t, e = .malformedPayload t := by
  cases e with
  | checksumMismatch f => exact iff_of_true (by simp [eventKind]) (.inl ⟨f, rfl⟩)
  | malformedPayload t => exact iff_of_true (by simp [eventKind]) (.inr ⟨t, rfl⟩)
  | unknownPacket | gps | battery | linkStatistics | attitude | flightMode => simp [eventKind]

/-- Settles O46: each code is `eventKind` at its constructor, `eventOfKind` reaches all eight, and the upper two bits
are read off kind by kind. -/
theorem kindCodesAreTheSpecs : Obligations.KindCodesAreTheSpecs :=
  ⟨fun _ _ => rfl, fun _ _ _ _ _ => rfl, fun _ => rfl, fun _ _ _ _ => rfl, fun _ _ _ => rfl, fun _ => rfl,
    fun _ => rfl, fun _ => rfl, fun k => ⟨eventOfKind k, eventKind_eventOfKind k⟩, eventKind_upper_bits_eq_three_iff⟩

end Sys2Proof.Machine

/-! ## Built frames (30_encoding.md R60, R79; 41_checksum.md R104, R105) -/

namespace Sys2Proof.Machine

section BuiltFrame

variable (t : Byte) (p : List Byte)

@[simp] theorem frameType_mkFrame : frameType (mkFrame t p) = t := rfl

@[simp] theorem framePayload_mkFrame : framePayload (mkFrame t p) = p := by
  simp [framePayload, slice, mkFrame]

@[simp] theorem crcCovered_mkFrame : crcCovered (mkFrame t p) = t :: p := by
  simp [crcCovered, slice, mkFrame]

/-- A built frame carries the checksum of what the checksum covers. -/
theorem crcOk_mkFrame : crcOk (mkFrame t p) = true := by
  have hlast : byteAt (mkFrame t p) ((mkFrame t p).length - 1) = crc8 (t :: p) := by
    simp [mkFrame, byteAt]
  rw [crcOk, crcCovered_mkFrame, hlast]
  exact decide_eq_true rfl

variable {p}

/-- A payload of at most 60 bytes leaves room for the length byte, so nothing wraps. -/
theorem frameOk_mkFrame (hp : p.length ≤ 60) : frameOk (mkFrame t p) = true := by
  rw [frameOk_iff, mkFrame_length]
  refine ⟨by omega, by omega, rfl, ?_⟩
  have hlength : byteAt (mkFrame t p) 1 = BitVec.ofNat 8 (p.length + 2) := rfl
  rw [hlength, totalLength, BitVec.toNat_ofNat, Nat.mod_eq_of_lt (by omega)]

/-- The row of a built frame is the one its type and payload select. -/
theorem decodeFrame_mkFrame (hp : p.length ≤ 60) : decodeFrame (mkFrame t p) = .instr (decodeBody t p) := by
  rw [decodeFrame_eq_instr_iff, if_pos (crcOk_mkFrame t p), frameType_mkFrame, framePayload_mkFrame]
  exact ⟨frameOk_mkFrame t hp, rfl⟩

end BuiltFrame

/-- Settles O10: the parts of a built frame are read back, and the last of them is the checksum of the others. -/
theorem builtFramesAreValid : Obligations.BuiltFramesAreValid :=
  fun t p hp => ⟨frameOk_mkFrame t hp, crcOk_mkFrame t p, frameType_mkFrame t p, framePayload_mkFrame t p⟩

/-- Every candidate frame is its three header bytes, a payload and a last byte. -/
theorem exists_parts_of_frameOk {f : List Byte} (hok : frameOk f = true) :
    ∃ (t : Byte) (p : List Byte) (c : Byte),
      p.length ≤ 60 ∧ f = [syncByte, BitVec.ofNat 8 (p.length + 2), t] ++ p ++ [c] := by
  obtain ⟨hmin, hmax, hsync, hlen⟩ := (frameOk_iff f).mp hok
  match f with
  | b :: l :: t :: rest =>
    obtain rfl | ⟨p, c, rfl⟩ := rest.eq_nil_or_concat
    · simp at hmin
    · simp [totalLength] at hmax hsync hlen
      refine ⟨t, p, c, by omega, ?_⟩
      have hl : l = BitVec.ofNat 8 (p.length + 2) := by
        rw [show p.length + 2 = l.toNat by omega, BitVec.ofNat_toNat, BitVec.setWidth_eq]
      simp [hsync, hl]

/-- A valid candidate frame is built from its type and its payload: no byte of it is anything else. -/
theorem mkFrame_frameType_framePayload {f : List Byte} (hok : frameOk f = true) (hcrc : crcOk f = true) :
    mkFrame (frameType f) (framePayload f) = f := by
  obtain ⟨t, p, c, -, rfl⟩ := exists_parts_of_frameOk hok
  have hc : crc8 (t :: p) = c := by
    rw [crcOk_iff] at hcrc
    simpa [slice, byteAt] using hcrc
  have hpayload : framePayload ([syncByte, BitVec.ofNat 8 (p.length + 2), t] ++ p ++ [c]) = p := by
    simp [framePayload, slice]
  rw [hpayload, ← hc]
  rfl

end Sys2Proof.Machine

/-! ## The frame rows and their encodings (30_encoding.md R66, R70 to R75; log 9) -/

namespace Sys2Proof.Machine

/-! From operands to bytes and back: the fields are read back from the payload that holds them. -/

theorem decodeBody_gpsPayload (lat lon : BitVec 32) (groundspeed heading altitude : BitVec 16) (satellites : Byte)
    (surplus : List Byte) :
    decodeBody 0x02#8 (gpsPayload lat lon groundspeed heading altitude satellites surplus) =
      .gps lat lon groundspeed heading altitude satellites surplus := by
  have hlat := u32be_append_be32 lat []
    (be32 lon ++ be16 groundspeed ++ be16 heading ++ be16 altitude ++ [satellites] ++ surplus)
  have hlon := u32be_append_be32 lon (be32 lat)
    (be16 groundspeed ++ be16 heading ++ be16 altitude ++ [satellites] ++ surplus)
  have hspeed := u16be_append_be16 groundspeed (be32 lat ++ be32 lon)
    (be16 heading ++ be16 altitude ++ [satellites] ++ surplus)
  have hheading := u16be_append_be16 heading (be32 lat ++ be32 lon ++ be16 groundspeed)
    (be16 altitude ++ [satellites] ++ surplus)
  have haltitude := u16be_append_be16 altitude (be32 lat ++ be32 lon ++ be16 groundspeed ++ be16 heading)
    ([satellites] ++ surplus)
  have hlong : ¬ (gpsPayload lat lon groundspeed heading altitude satellites surplus).length < minPayload 0x02#8 := by
    rw [gpsPayload_length]
    exact Nat.not_lt.mpr (Nat.le_add_right 15 _)
  rw [decodeBody, if_neg (by decide), if_neg hlong, if_pos rfl, Instr.gps.injEq]
  exact ⟨hlat, hlon, hspeed, hheading, haltitude, rfl, rfl⟩

theorem decodeBody_battery (voltage : BitVec 16) (remainder : List Byte) :
    decodeBody 0x08#8 (be16 voltage ++ remainder) = .battery voltage remainder := by
  have hvoltage := u16be_append_be16 voltage [] remainder
  have hlong : ¬ (be16 voltage ++ remainder).length < minPayload 0x08#8 := by
    rw [List.length_append]
    exact Nat.not_lt.mpr (Nat.le_add_right 2 _)
  rw [decodeBody, if_neg (by decide), if_neg hlong, if_neg (by decide), if_pos rfl, Instr.battery.injEq]
  exact ⟨hvoltage, rfl⟩

theorem decodeBody_linkStatistics (rssi1 rssi2 linkQuality snr : Byte) (surplus : List Byte) :
    decodeBody 0x14#8 ([rssi1, rssi2, linkQuality, snr] ++ surplus) =
      .linkStatistics rssi1 rssi2 linkQuality snr surplus := by
  have hlong : ¬ ([rssi1, rssi2, linkQuality, snr] ++ surplus).length < minPayload 0x14#8 := by
    rw [List.length_append]
    exact Nat.not_lt.mpr (Nat.le_add_right 4 _)
  rw [decodeBody, if_neg (by decide), if_neg hlong, if_neg (by decide), if_neg (by decide), if_pos rfl]
  rfl

theorem decodeBody_attitude (pitch roll yaw : BitVec 16) (surplus : List Byte) :
    decodeBody 0x1E#8 (be16 pitch ++ be16 roll ++ be16 yaw ++ surplus) = .attitude pitch roll yaw surplus := by
  have hpitch := u16be_append_be16 pitch [] (be16 roll ++ be16 yaw ++ surplus)
  have hroll := u16be_append_be16 roll (be16 pitch) (be16 yaw ++ surplus)
  have hyaw := u16be_append_be16 yaw (be16 pitch ++ be16 roll) surplus
  have hlong : ¬ (be16 pitch ++ be16 roll ++ be16 yaw ++ surplus).length < minPayload 0x1E#8 := by
    rw [List.length_append]
    exact Nat.not_lt.mpr (Nat.le_add_right 6 _)
  rw [decodeBody, if_neg (by decide), if_neg hlong, if_neg (by decide), if_neg (by decide), if_neg (by decide),
    if_pos rfl, Instr.attitude.injEq]
  exact ⟨hpitch, hroll, hyaw, rfl⟩

/-- Flight Mode has no least size, so any payload is one. -/
theorem decodeBody_flightMode (p : List Byte) : decodeBody 0x21#8 p = .flightMode p :=
  rfl

theorem decodeBody_unknown {t : Byte} (ht : recognisedType t = false) (p : List Byte) :
    decodeBody t p = .unknown t p := by
  rw [decodeBody, if_pos ht]

/-- A type with a least payload size is a recognised one. -/
theorem recognisedType_of_minPayload_pos {t : Byte} (h : 0 < minPayload t) : recognisedType t = true := by
  unfold minPayload at h
  split_ifs at h with hgps hbattery hlink hattitude
  · exact hgps ▸ rfl
  · exact hbattery ▸ rfl
  · exact hlink ▸ rfl
  · exact hattitude ▸ rfl
  · exact absurd h (Nat.lt_irrefl 0)

theorem decodeBody_malformedPayload {t : Byte} {p : List Byte} (h : p.length < minPayload t) :
    decodeBody t p = .malformedPayload t p := by
  have ht := recognisedType_of_minPayload_pos (Nat.zero_lt_of_lt h)
  rw [decodeBody, if_neg (by simp [ht]), if_pos h]

/-- Settles O1: seven rows are frames built from a payload, whose length the row's constraint bounds, and the body
decoder reads the operands back from that payload; the eighth is the frame itself. -/
theorem frameRowsDecodeTheirEncoding : Obligations.FrameRowsDecodeTheirEncoding := by
  intro i f hrow hwf hf
  have hbuilt {t : Byte} {p : List Byte} (hp : p.length ≤ 60) (henc : encode i = some (mkFrame t p))
      (hbody : decodeBody t p = i) : decodeFrame f = .instr i := by
    obtain rfl : mkFrame t p = f := Option.some.inj (henc.symm.trans hf)
    rw [decodeFrame_mkFrame t hp, hbody]
  cases i with
  | gps lat lon groundspeed heading altitude satellites surplus =>
    refine hbuilt ?_ rfl (decodeBody_gpsPayload ..)
    have hlen := of_decide_eq_true hwf
    rw [gpsPayload_length]
    omega
  | battery voltage remainder =>
    refine hbuilt ?_ rfl (decodeBody_battery voltage remainder)
    have hlen := of_decide_eq_true hwf
    rw [List.length_append, be16_length]
    omega
  | linkStatistics rssi1 rssi2 linkQuality snr surplus =>
    refine hbuilt ?_ rfl (decodeBody_linkStatistics rssi1 rssi2 linkQuality snr surplus)
    have hlen := of_decide_eq_true hwf
    simp only [List.length_append, List.length_cons, List.length_nil]
    omega
  | attitude pitch roll yaw surplus =>
    refine hbuilt ?_ rfl (decodeBody_attitude pitch roll yaw surplus)
    have hlen := of_decide_eq_true hwf
    simp only [List.length_append, be16_length]
    omega
  | flightMode payload => exact hbuilt (of_decide_eq_true hwf) rfl (decodeBody_flightMode payload)
  | unknown typ payload =>
    obtain ⟨htype, hlen⟩ : recognisedType typ = false ∧ payload.length ≤ 60 := by simpa [Instr.wf] using hwf
    exact hbuilt hlen rfl (decodeBody_unknown htype payload)
  | checksumMismatch frame =>
    obtain ⟨hok, hcrc⟩ : frameOk frame = true ∧ crcOk frame = false := by simpa [Instr.wf] using hwf
    obtain rfl : frame = f := Option.some.inj hf
    rw [decodeFrame_eq_instr_iff, hcrc]
    exact ⟨hok, rfl⟩
  | malformedPayload typ payload =>
    have hshort : payload.length < minPayload typ := of_decide_eq_true hwf
    have hmin := minPayload_le typ
    exact hbuilt (by omega) rfl (decodeBody_malformedPayload hshort)
  | clear | trim | drop1 | extract | retNeedMore | feed | decode | take | reset => cases hrow

/-! From bytes to operands and back: the fields of a payload and the rest of it are the payload. -/

theorem byteAt_cons_drop {p : List Byte} {o : Nat} (h : o < p.length) : byteAt p o :: p.drop (o + 1) = p.drop o := by
  rw [List.drop_eq_getElem_cons h]
  simp [byteAt, h]

section Refold

variable {p : List Byte}

theorem gpsPayload_refold (h : 15 ≤ p.length) :
    gpsPayload (u32be p 0) (u32be p 4) (u16be p 8) (u16be p 10) (u16be p 12) (byteAt p 14) (p.drop 15) = p := by
  simp (disch := omega) [gpsPayload, be32_u32be, be16_u16be, byteAt_cons_drop, -List.drop_one]

theorem battery_refold (h : 2 ≤ p.length) : be16 (u16be p 0) ++ p.drop 2 = p := by
  simp (disch := omega) [be16_u16be, byteAt_cons_drop, -List.drop_one]

theorem linkStatistics_refold (h : 4 ≤ p.length) :
    [byteAt p 0, byteAt p 1, byteAt p 2, byteAt p 3] ++ p.drop 4 = p := by
  simp (disch := omega) [byteAt_cons_drop, -List.drop_one]

theorem attitude_refold (h : 6 ≤ p.length) :
    be16 (u16be p 0) ++ be16 (u16be p 2) ++ be16 (u16be p 4) ++ p.drop 6 = p := by
  simp (disch := omega) [be16_u16be, byteAt_cons_drop, -List.drop_one]

end Refold

/-- The body decoder answers a well-formed row whose frame is built from the type and the payload it was given. -/
theorem decodeBody_spec (t : Byte) {p : List Byte} (hp : p.length ≤ 60) :
    (decodeBody t p).isFrameRow = true ∧ (decodeBody t p).wf = true ∧
      encode (decodeBody t p) = some (mkFrame t p) := by
  unfold decodeBody
  split_ifs with hunknown hshort hgps hbattery hlink hattitude
  · exact ⟨rfl, by simp [Instr.wf, hunknown, hp], rfl⟩
  · exact ⟨rfl, decide_eq_true hshort, rfl⟩
  · subst hgps
    have hlong : 15 ≤ p.length := Nat.not_lt.mp hshort
    exact ⟨rfl, by simp [Instr.wf]; omega, by rw [encode, gpsPayload_refold hlong]⟩
  · subst hbattery
    have hlong : 2 ≤ p.length := Nat.not_lt.mp hshort
    exact ⟨rfl, by simp [Instr.wf]; omega, by rw [encode, battery_refold hlong]⟩
  · subst hlink
    have hlong : 4 ≤ p.length := Nat.not_lt.mp hshort
    exact ⟨rfl, by simp [Instr.wf]; omega, by rw [encode, linkStatistics_refold hlong]⟩
  · subst hattitude
    have hlong : 6 ≤ p.length := Nat.not_lt.mp hshort
    exact ⟨rfl, by simp [Instr.wf]; omega, by rw [encode, attitude_refold hlong]⟩
  · have hflight : t = 0x21#8 := by simpa [recognisedType, hgps, hbattery, hlink, hattitude] using hunknown
    exact ⟨rfl, decide_eq_true hp, by rw [hflight, encode]⟩

/-- Settles O2: a candidate whose checksum fails is its own row; any other is built from its type and payload, which the
row of the body decoder encodes. -/
theorem decodedFramesEncodeBack : Obligations.DecodedFramesEncodeBack := by
  refine ⟨fun f i hd => ?_, fun f => ?_⟩
  · obtain ⟨hok, rfl⟩ := (decodeFrame_eq_instr_iff f i).mp hd
    cases hcrc : crcOk f with
    | false => exact ⟨rfl, by simp [Instr.wf, hok, hcrc], rfl⟩
    | true =>
      have hspec := decodeBody_spec (frameType f) (framePayload_length_le hok)
      rwa [mkFrame_frameType_framePayload hok hcrc] at hspec
  · simp only [decodeFrame_eq_instr_iff, exists_and_left, exists_eq, and_true]

set_option maxRecDepth 20000 in
/-- Settles O4: each frame is the encoding of its row, so its row decodes from it. -/
theorem specFramesDecodeToTheirRows : Obligations.SpecFramesDecodeToTheirRows := by
  refine ⟨?gps, ?battery, ?unknown, ?link, ?attitude, ?flightMode, ?malformed, ?mismatch⟩
  case gps => exact frameRowsDecodeTheirEncoding _ _ rfl rfl (by decide)
  case battery => exact frameRowsDecodeTheirEncoding _ _ rfl rfl (by decide)
  case unknown => exact frameRowsDecodeTheirEncoding _ _ rfl rfl (by decide)
  case link => exact frameRowsDecodeTheirEncoding _ _ rfl rfl (by decide)
  case attitude => exact frameRowsDecodeTheirEncoding _ _ rfl rfl (by decide)
  case flightMode => exact frameRowsDecodeTheirEncoding _ _ rfl rfl (by decide)
  case malformed => exact frameRowsDecodeTheirEncoding _ _ rfl rfl (by decide)
  case mismatch => exact frameRowsDecodeTheirEncoding _ _ rfl (by decide) rfl

end Sys2Proof.Machine

/-! ## Bit errors (41_checksum.md R105) -/

namespace Sys2Proof.Machine

open Safety

theorem crcOk_iff_drop {f : List Byte} (hlen : 3 ≤ f.length) : crcOk f = true ↔ crc8 (f.drop 2) = 0x00#8 := by
  have hall : f.drop 2 = slice f 2 f.length := by simp [slice]
  rw [hall, crc8_slice_length hlen, crc8Byte_eq_zero_iff]
  exact crcOk_iff f

/-- One byte replaced by another changes the checksum: the accumulators differ there and stay different. -/
theorem crc8_set_ne {s : List Byte} {i : Nat} {b : Byte} (hi : i < s.length) (hb : b ≠ byteAt s i) :
    crc8 (s.set i b) ≠ crc8 s := by
  have hcut : crc8 s = (byteAt s i :: s.drop (i + 1)).foldl crc8Byte (crc8 (s.take i)) := by
    rw [← crc8_append, byteAt_cons_drop hi, List.take_append_drop]
  have hset : crc8 (s.set i b) = (b :: s.drop (i + 1)).foldl crc8Byte (crc8 (s.take i)) := by
    rw [← crc8_append, List.set_eq_take_append_cons_drop, if_pos hi]
  rw [hset, hcut]
  exact fun heq => hb (crc8Byte_right_injective _ (foldl_crc8Byte_injective _ heq))

/-- A set bit changes the byte it is added to. -/
theorem xor_bit_ne (b : Byte) {j : Nat} (hj : j < 8) : b ^^^ (1#8 <<< j) ≠ b := by
  intro h
  have hbit := congrArg (·.getLsbD j) h
  simp [hj] at hbit

@[simp] theorem flipBit_length (f : List Byte) (i j : Nat) : (flipBit f i j).length = f.length := List.length_set

theorem byteAt_flipBit_of_ne {f : List Byte} {i j o : Nat} (h : i ≠ o) : byteAt (flipBit f i j) o = byteAt f o := by
  simp [flipBit, byteAt, h]

/-- The length invariants do not look behind the length byte. -/
theorem frameOk_flipBit {f : List Byte} {i j : Nat} (hi : 2 ≤ i) : frameOk (flipBit f i j) = frameOk f := by
  rw [frameOk, flipBit_length, byteAt_flipBit_of_ne (by omega), byteAt_flipBit_of_ne (by omega), frameOk]

theorem crcOk_flipBit {f : List Byte} {i j : Nat} (hcrc : crcOk f = true) (hi : 2 ≤ i) (hlen : i < f.length)
    (hj : j < 8) : crcOk (flipBit f i j) = false := by
  rw [crcOk_iff_drop (by omega)] at hcrc
  have hbyte : byteAt f i = byteAt (f.drop 2) (i - 2) := by simp [byteAt, Nat.add_sub_cancel' hi]
  have hdrop : (flipBit f i j).drop 2 = (f.drop 2).set (i - 2) (byteAt (f.drop 2) (i - 2) ^^^ (1#8 <<< j)) := by
    rw [flipBit, List.drop_set, if_neg (Nat.not_lt.mpr hi), hbyte]
  have hne := crc8_set_ne (s := f.drop 2) (i := i - 2) (by simp; omega) (xor_bit_ne _ hj)
  rw [← hdrop, hcrc] at hne
  rwa [← Bool.not_eq_true, crcOk_iff_drop (by rw [flipBit_length]; omega)]

/-- Settles O11: the flipped byte stands where the checksum looks, and the length invariants do not see it. -/
theorem singleBitFlipIsDetected : Obligations.SingleBitFlipIsDetected := by
  intro f i j hok hcrc hi hlen hj
  have hbad := crcOk_flipBit hcrc hi hlen hj
  refine ⟨hbad, ?_⟩
  rw [decodeFrame_eq_instr_iff, hbad, frameOk_flipBit hi]
  exact ⟨hok, rfl⟩

end Sys2Proof.Machine

/-! ## DECODE and its rows (42_dispatch.md R110 to R115) -/

namespace Sys2Proof.Machine

/-- The event of each frame row, from its operands (43_payload_decode.md R120 to R128, 42_dispatch.md R112 to R115). -/
def rowEvent (cfg : Config) : Instr → Option Event
  | .gps lat lon groundspeed _ altitude satellites _ =>
    some (.gps (sext lat) (sext lon) groundspeed.toNat altitude.toNat satellites.toNat)
  | .battery voltage _ => some (.battery voltage.toNat)
  | .linkStatistics rssi1 rssi2 linkQuality snr _ =>
    some (.linkStatistics rssi1.toNat rssi2.toNat linkQuality.toNat (sext snr))
  | .attitude pitch roll yaw _ => some (.attitude (sext pitch) (sext roll) (sext yaw))
  | .flightMode payload => some (.flightMode (flightModeText cfg payload))
  | .unknown typ payload => some (.unknownPacket typ payload)
  | .checksumMismatch frame => some (.checksumMismatch frame)
  | .malformedPayload typ _ => some (.malformedPayload typ)
  | _ => none

/-- A frame row runs `retire` with its event. -/
theorem exec_eq_retire {i : Instr} {s : State} {e : Event} (h : rowEvent s.cfg i = some e) :
    exec i s = retire i e s := by
  cases i with
  | gps | battery | linkStatistics | attitude | flightMode | unknown | checksumMismatch | malformedPayload =>
    cases h
    rfl
  | clear | trim | drop1 | extract | retNeedMore | feed | decode | take | reset => cases h

theorem exists_rowEvent {i : Instr} (h : i.isFrameRow = true) (cfg : Config) : ∃ e, rowEvent cfg i = some e := by
  cases i with
  | gps | battery | linkStatistics | attitude | flightMode | unknown | checksumMismatch | malformedPayload =>
    exact ⟨_, rfl⟩
  | clear | trim | drop1 | extract | retNeedMore | feed | decode | take | reset => cases h

/-- The row and the event that type and payload select belong together. -/
theorem rowEvent_decodeBody (cfg : Config) (t : Byte) (p : List Byte) :
    rowEvent cfg (decodeBody t p) = some (bodyEvent cfg t p) := by
  unfold decodeBody
  split_ifs with hunknown hshort hgps hbattery hlink hattitude
  · simp only [recognisedType, Bool.or_eq_false_iff, decide_eq_false_iff_not] at hunknown
    obtain ⟨⟨⟨⟨hgps, hbattery⟩, hlink⟩, hattitude⟩, hflight⟩ := hunknown
    rw [bodyEvent_unknown cfg p hgps hbattery hlink hattitude hflight, rowEvent]
  · rw [bodyEvent_of_short cfg hshort, rowEvent]
  · subst hgps
    rw [bodyEvent_gps cfg (Nat.not_lt.mp hshort), rowEvent, decodeGps]
  · subst hbattery
    rw [bodyEvent_battery cfg (Nat.not_lt.mp hshort), rowEvent, decodeBattery]
  · subst hlink
    rw [bodyEvent_link cfg (Nat.not_lt.mp hshort), rowEvent, decodeLink]
  · subst hattitude
    rw [bodyEvent_attitude cfg (Nat.not_lt.mp hshort), rowEvent, decodeAttitude]
  · have hflight : t = 0x21#8 := by simpa [recognisedType, hgps, hbattery, hlink, hattitude] using hunknown
    rw [hflight, bodyEvent_flightMode, rowEvent, decodeFlightMode]

/-- The event of the row that a frame selects is the frame's `decode`. -/
theorem rowEvent_of_decodeFrame (cfg : Config) {f : List Byte} {i : Instr} (h : decodeFrame f = .instr i) :
    rowEvent cfg i = decodeEvent cfg f := by
  obtain ⟨hok, rfl⟩ := (decodeFrame_eq_instr_iff f i).mp h
  cases hcrc : crcOk f with
  | false =>
    rw [decodeEvent_of_crcOk_false cfg hok hcrc]
    rfl
  | true =>
    rw [decodeEvent_of_crcOk cfg hok hcrc]
    exact rowEvent_decodeBody cfg _ _

/-- Every candidate frame selects a row and has an event. -/
theorem exists_decode_of_frameOk (cfg : Config) {f : List Byte} (hok : frameOk f = true) :
    ∃ i e, decodeFrame f = .instr i ∧ rowEvent cfg i = some e ∧ decodeEvent cfg f = some e := by
  obtain ⟨i, hi⟩ := (decodedFramesEncodeBack.2 f).mp hok
  obtain ⟨e, he⟩ := exists_rowEvent (decodedFramesEncodeBack.1 f i hi).1 cfg
  exact ⟨i, e, hi, he, rowEvent_of_decodeFrame cfg hi ▸ he⟩

theorem decodeEvent_eq_none_iff (cfg : Config) (f : List Byte) : decodeEvent cfg f = none ↔ frameOk f = false := by
  cases hok : frameOk f with
  | false => simp [decodeEvent, hok]
  | true =>
    obtain ⟨-, e, -, -, he⟩ := exists_decode_of_frameOk cfg hok
    simp [he]

section FrameToDecode

variable {s : State} {f : List Byte} (hfrm : s.frm = some f) (hevt : s.evt = none)
include hfrm hevt

theorem exec_decode_delivers {e : Event} (he : decodeEvent s.cfg f = some e) :
    exec .decode s = .next (s.deliver f e) := by
  simp [exec, execDecode, hfrm, hevt, he]

theorem exec_row_delivers {i : Instr} {e : Event} (hi : decodeFrame f = .instr i) (he : rowEvent s.cfg i = some e) :
    exec i s = .next (s.deliver f e) := by
  rw [exec_eq_retire he, retire_selected hfrm hevt hi]

theorem exec_decode_refused (hbad : frameOk f = false) : exec .decode s = .refused .brokenFrame := by
  simp [exec, execDecode, hfrm, hevt, (decodeEvent_eq_none_iff s.cfg f).mpr hbad]

theorem exec_row_refused {i : Instr} (hrow : i.isFrameRow = true) (hbad : frameOk f = false) :
    exec i s = .refused .brokenFrame := by
  obtain ⟨e, he⟩ := exists_rowEvent hrow s.cfg
  obtain ⟨r, hr⟩ := (decodeFrame_reject_iff f).mpr hbad
  simp [exec_eq_retire he, retire, hfrm, hevt, hr]

end FrameToDecode

/-- Settles O30: a candidate frame has an event, and `deliver` is the next state of R110. -/
theorem decodeWritesOneEvent : Obligations.DecodeWritesOneEvent := by
  intro s f hfrm hevt hok
  obtain ⟨i, e, -, -, he⟩ := exists_decode_of_frameOk s.cfg hok
  exact ⟨e, he, exec_decode_delivers hfrm hevt he⟩

/-- Settles O31: both deliver the one event of the frame, and both are refused when it has none. -/
theorem decodeRunsTheSelectedRow : Obligations.DecodeRunsTheSelectedRow := by
  intro s f hfrm hevt
  refine ⟨fun i hi => ?_, fun hbad => ⟨exec_decode_refused hfrm hevt hbad, fun i hrow =>
    exec_row_refused hfrm hevt hrow hbad⟩⟩
  obtain ⟨e, he⟩ := exists_rowEvent (decodedFramesEncodeBack.1 f i hi).1 s.cfg
  rw [exec_row_delivers hfrm hevt hi he, exec_decode_delivers hfrm hevt (rowEvent_of_decodeFrame s.cfg hi ▸ he)]

/-- A well-formed row delivers its event from its own frame. -/
theorem exec_row_of_encode {s : State} {f : List Byte} {i : Instr} {e : Event} (hfrm : s.frm = some f)
    (hevt : s.evt = none) (hrow : i.isFrameRow = true) (hwf : i.wf = true) (henc : encode i = some f)
    (he : rowEvent s.cfg i = some e) : exec i s = .next (s.deliver f e) :=
  exec_row_delivers hfrm hevt (frameRowsDecodeTheirEncoding i f hrow hwf henc) he

/-- Settles O32: a signed field is the two's-complement value of its pattern. -/
theorem gpsFrameGivesItsFields : Obligations.GpsFrameGivesItsFields := by
  intro lat lon groundspeed heading altitude satellites surplus f s hlen hf hfrm hevt
  refine exec_row_of_encode hfrm hevt rfl (decide_eq_true hlen) (congrArg some hf.symm) ?_
  rw [rowEvent, sext_eq_toInt (by decide), sext_eq_toInt (by decide)]

/-- Settles O33: the voltage is unsigned as it stands. -/
theorem batteryFrameGivesTheVoltage : Obligations.BatteryFrameGivesTheVoltage := by
  intro voltage remainder f s hlen hf hfrm hevt
  exact exec_row_of_encode hfrm hevt rfl (decide_eq_true hlen) (congrArg some hf.symm) rfl

/-- Settles O34: `snr` alone is read as two's complement. -/
theorem linkFrameGivesItsFields : Obligations.LinkFrameGivesItsFields := by
  intro rssi1 rssi2 linkQuality snr surplus f s hlen hf hfrm hevt
  refine exec_row_of_encode hfrm hevt rfl (decide_eq_true hlen) (congrArg some hf.symm) ?_
  rw [rowEvent, sext_eq_toInt (by decide)]

/-- Settles O35: each field is the two's-complement value of its pattern. -/
theorem attitudeFrameGivesItsFields : Obligations.AttitudeFrameGivesItsFields := by
  intro pitch roll yaw surplus f s hlen hf hfrm hevt
  refine exec_row_of_encode hfrm hevt rfl (decide_eq_true hlen) (congrArg some hf.symm) ?_
  rw [rowEvent, sext_eq_toInt (by decide), sext_eq_toInt (by decide), sext_eq_toInt (by decide)]

/-- Settles O36: no payload is too short for the row. -/
theorem flightModeFrameGivesItsText : Obligations.FlightModeFrameGivesItsText := by
  intro payload f s hlen hf hfrm hevt
  exact exec_row_of_encode hfrm hevt rfl (decide_eq_true hlen) (congrArg some hf.symm) rfl

/-- Settles O37: a type that is none of the five is not recognised. -/
theorem unknownFrameKeepsItsPayload : Obligations.UnknownFrameKeepsItsPayload := by
  intro typ payload f s hgps hbattery hlink hattitude hflight hlen hf hfrm hevt
  have hwf : (Instr.unknown typ payload).wf = true := by
    simp [Instr.wf, recognisedType, hgps, hbattery, hlink, hattitude, hflight, hlen]
  exact exec_row_of_encode hfrm hevt rfl hwf (congrArg some hf.symm) rfl

/-- Settles O38: the row is well-formed exactly on such a frame, which is its own encoding. -/
theorem badChecksumKeepsTheFrame : Obligations.BadChecksumKeepsTheFrame := by
  intro f s hok hcrc hfrm hevt
  have hwf : (Instr.checksumMismatch f).wf = true := by simp [Instr.wf, hok, (crcOk_eq_false_iff f).mpr hcrc]
  exact exec_row_of_encode hfrm hevt rfl hwf rfl rfl

/-- Settles O39: the four lengths are the least sizes of the four types. -/
theorem shortPayloadGivesItsType : Obligations.ShortPayloadGivesItsType := by
  intro typ payload f s hshort hf hfrm hevt
  have hwf : (Instr.malformedPayload typ payload).wf = true := by
    obtain ⟨rfl, hlen⟩ | ⟨rfl, hlen⟩ | ⟨rfl, hlen⟩ | ⟨rfl, hlen⟩ := hshort
    all_goals exact decide_eq_true hlen
  exact exec_row_of_encode hfrm hevt rfl hwf (congrArg some hf.symm) rfl

end Sys2Proof.Machine

/-! ## The guards of the SYNC steps and the selection (40_frame_assembler.md R84 to R90) -/

namespace Sys2Proof.Machine

theorem getElem?_eq_some_iff_byteAt {s : List Byte} {o : Nat} {b : Byte} :
    s[o]? = some b ↔ o < s.length ∧ byteAt s o = b := by
  constructor
  · exact fun h => ⟨(List.getElem?_eq_some_iff.mp h).1, byteAt_eq_of_getElem? h⟩
  · rintro ⟨ho, rfl⟩
    exact getElem?_eq_some_byteAt ho

/-- What is said of a byte that is there is said of `byteAt`. -/
theorem exists_getElem?_iff {s : List Byte} {o : Nat} {P : Byte → Prop} :
    (∃ b, s[o]? = some b ∧ P b) ↔ o < s.length ∧ P (byteAt s o) := by
  simp [getElem?_eq_some_iff_byteAt, and_assoc]

/-! The conditions of 10_state.md R27 and the guards of R85 to R90, as the rules write them. -/

section Guards

variable (s : State)

theorem syncAtFront_iff : syncAtFront s = true ↔ s.buf[0]? = some syncByte := by
  simp only [syncAtFront, Bool.and_eq_true, decide_eq_true_eq, getElem?_eq_some_iff_byteAt, Nat.succ_le_iff]

theorem findSync_eq_zero_iff : findSync s.buf = some 0 ↔ syncAtFront s = true := by
  simp [findSync_eq_some_iff, syncAtFront_iff]

theorem lenOk_iff :
    lenOk s = true ↔ 1 < s.buf.length ∧ 2 ≤ (byteAt s.buf 1).toNat ∧ (byteAt s.buf 1).toNat ≤ 62 := by
  rw [lenOk, Bool.and_eq_true, Bool.not_eq_true', decide_eq_true_eq, badLength_eq_false_iff, Nat.succ_le_iff]

/-- A plausible length byte is there, but not all the bytes it asks for. -/
theorem incomplete_iff :
    (lenOk s && !haveFrame s) = true ↔
      ∃ l : Byte, s.buf[1]? = some l ∧ 2 ≤ l.toNat ∧ l.toNat ≤ 62 ∧ s.buf.length < l.toNat + 2 := by
  rw [exists_getElem?_iff (P := fun l => 2 ≤ l.toNat ∧ l.toNat ≤ 62 ∧ s.buf.length < l.toNat + 2), Bool.and_eq_true,
    Bool.not_eq_true', ← Bool.not_eq_true, haveFrame, Bool.and_eq_true, lenOk_iff, decide_eq_true_eq, totalLength]
  omega

theorem mayScan_iff : mayScan s = true ↔ s.ph = .scan ∨ 2 ≤ s.buf.length := by
  simp [mayScan]

theorem not_mayScan_iff : mayScan s = false ↔ s.ph = .entry ∧ s.buf.length < 2 := by
  cases h : s.ph <;> simp [mayScan, h]

theorem canClear_iff :
    canClear s = true ↔ (s.ph = .scan ∨ 2 ≤ s.buf.length) ∧ ∀ b ∈ s.buf, b ≠ 0xC8#8 := by
  rw [canClear, Bool.and_eq_true, mayScan_iff, decide_eq_true_eq, findSync_eq_none_iff]

theorem canTrim_iff (k : Nat) :
    canTrim k s = true ↔
      (s.ph = .scan ∨ 2 ≤ s.buf.length) ∧ 0 < k ∧ s.buf[k]? = some 0xC8#8 ∧ ∀ j < k, s.buf[j]? ≠ some 0xC8#8 := by
  rw [canTrim, Bool.and_eq_true, Bool.and_eq_true, mayScan_iff, decide_eq_true_eq, decide_eq_true_eq,
    findSync_eq_some_iff, and_assoc, and_comm (b := 0 < k)]

theorem canRetNeedMore_iff :
    canRetNeedMore s = true ↔
      s.ph = .scan ∧ s.buf[0]? = some 0xC8#8 ∧
        (s.buf.length < 2 ∨
          ∃ l : Byte, s.buf[1]? = some l ∧ 2 ≤ l.toNat ∧ l.toNat ≤ 62 ∧ s.buf.length < l.toNat + 2) := by
  rw [canRetNeedMore, Bool.and_eq_true, Bool.and_eq_true, Bool.or_eq_true, incomplete_iff, syncAtFront_iff,
    decide_eq_true_eq, decide_eq_true_eq, and_assoc]

theorem needMore_iff :
    needMore s = true ↔
      s.ph = .entry ∧
        (s.buf.length < 2 ∨
          s.buf[0]? = some 0xC8#8 ∧
            ∃ l : Byte, s.buf[1]? = some l ∧ 2 ≤ l.toNat ∧ l.toNat ≤ 62 ∧ s.buf.length < l.toNat + 2) := by
  rw [needMore, Bool.and_assoc (syncAtFront s), Bool.and_eq_true, Bool.or_eq_true, Bool.and_eq_true (syncAtFront s),
    incomplete_iff, syncAtFront_iff, decide_eq_true_eq, decide_eq_true_eq]

theorem canDrop1_iff (l : Byte) :
    canDrop1 l s = true ↔ s.buf[0]? = some 0xC8#8 ∧ s.buf[1]? = some l ∧ (l.toNat < 2 ∨ 62 < l.toNat) := by
  simp only [canDrop1, Bool.and_eq_true, decide_eq_true_eq, syncAtFront_iff, badLength_iff,
    getElem?_eq_some_iff_byteAt (o := 1), Nat.succ_le_iff, and_assoc, and_left_comm]

theorem frmValid_eq_false_iff : frmValid s = false ↔ s.frm = none := by
  simp [frmValid]

theorem canExtract_iff (l : Byte) :
    canExtract l s = true ↔
      s.buf[0]? = some 0xC8#8 ∧ s.buf[1]? = some l ∧ 2 ≤ l.toNat ∧ l.toNat ≤ 62 ∧ l.toNat + 2 ≤ s.buf.length ∧
        s.frm = none := by
  simp only [canExtract, Bool.and_eq_true, Bool.not_eq_true', decide_eq_true_eq, syncAtFront_iff,
    badLength_eq_false_iff, frmValid_eq_false_iff, totalLength, getElem?_eq_some_iff_byteAt (o := 1),
    Nat.succ_le_iff, and_assoc, and_left_comm]

end Guards

/-! Each guard selects its step. -/

section Selection

variable {s : State}

theorem syncChoice_of_canClear (h : canClear s = true) : syncChoice s = .step .clear := by
  obtain ⟨hmay, hnone⟩ : mayScan s = true ∧ findSync s.buf = none := by simpa [canClear] using h
  have hlong := mt (not_mayScan_iff s).mpr (by simp [hmay])
  rw [syncChoice, decodeSync, if_neg hlong, hnone]

theorem syncChoice_of_canTrim {k : Nat} (h : canTrim k s = true) : syncChoice s = .step (.trim k) := by
  obtain ⟨⟨hmay, hfind⟩, hk⟩ : (mayScan s = true ∧ findSync s.buf = some k) ∧ 0 < k := by simpa [canTrim] using h
  have hlong := mt (not_mayScan_iff s).mpr (by simp [hmay])
  obtain ⟨j, rfl⟩ := Nat.exists_eq_succ_of_ne_zero hk.ne'
  rw [syncChoice, decodeSync, if_neg hlong, hfind]

/-- With the sync byte at the front and a length byte behind it, the length and the state of FRM decide. -/
theorem syncChoice_of_front {l : Byte} (h0 : s.buf[0]? = some syncByte) (h1 : s.buf[1]? = some l) :
    syncChoice s =
      if badLength l then .step (.drop1 l)
      else if s.buf.length < totalLength l then (if s.ph = .scan then .step .retNeedMore else .hold)
      else if frmValid s then .stall
      else .step (.extract l) := by
  have hfind : findSync s.buf = some 0 := (findSync_eq_zero_iff s).mpr ((syncAtFront_iff s).mpr h0)
  obtain ⟨hlen, rfl⟩ := getElem?_eq_some_iff_byteAt.mp h1
  have hlong : ¬ s.buf.length < 2 := Nat.not_lt.mpr hlen
  simp [syncChoice, decodeSync, hlong, hfind]

theorem syncChoice_of_canDrop1 {l : Byte} (h : canDrop1 l s = true) : syncChoice s = .step (.drop1 l) := by
  obtain ⟨h0, h1, hbad⟩ := (canDrop1_iff s l).mp h
  rw [syncChoice_of_front h0 h1, if_pos ((badLength_iff l).mpr hbad)]

section PlausibleLength

variable {l : Byte} (h0 : s.buf[0]? = some syncByte) (h1 : s.buf[1]? = some l) (hlo : 2 ≤ l.toNat)
  (hhi : l.toNat ≤ 62)
include h0 h1 hlo hhi

theorem syncChoice_of_incomplete (hlen : s.buf.length < l.toNat + 2) :
    syncChoice s = if s.ph = .scan then .step .retNeedMore else .hold := by
  rw [syncChoice_of_front h0 h1, if_neg (by simp [badLength]; omega),
    if_pos (c := _ < totalLength l) hlen]

theorem syncChoice_of_complete (hlen : l.toNat + 2 ≤ s.buf.length) :
    syncChoice s = if frmValid s then .stall else .step (.extract l) := by
  rw [syncChoice_of_front h0 h1, if_neg (by simp [badLength]; omega),
    if_neg (c := _ < totalLength l) (Nat.not_lt.mpr hlen)]

end PlausibleLength

theorem syncChoice_of_canExtract {l : Byte} (h : canExtract l s = true) : syncChoice s = .step (.extract l) := by
  obtain ⟨h0, h1, hlo, hhi, hlen, hfrm⟩ := (canExtract_iff s l).mp h
  rw [syncChoice_of_complete h0 h1 hlo hhi hlen, (frmValid_eq_false_iff s).mpr hfrm]
  rfl

theorem syncChoice_of_canRetNeedMore (h : canRetNeedMore s = true) : syncChoice s = .step .retNeedMore := by
  obtain ⟨hph, h0, hlen | ⟨l, h1, hlo, hhi, hlen⟩⟩ := (canRetNeedMore_iff s).mp h
  · have hfind : findSync s.buf = some 0 := (findSync_eq_zero_iff s).mpr ((syncAtFront_iff s).mpr h0)
    simp [syncChoice, decodeSync, hph, hfind, hlen]
  · rw [syncChoice_of_incomplete h0 h1 hlo hhi hlen, if_pos hph]

theorem syncChoice_of_needMore (h : needMore s = true) : syncChoice s = .hold := by
  obtain ⟨hph, hlen | ⟨h0, l, h1, hlo, hhi, hlen⟩⟩ := (needMore_iff s).mp h
  · exact syncChoice_eq_hold_of_short hph hlen
  · rw [syncChoice_of_incomplete h0 h1 hlo hhi hlen, if_neg (by simp [hph])]

end Selection

/-- A complete frame at the front while FRM is occupied: the STALL of R84. -/
def frameWaits (s : State) : Prop :=
  s.frm ≠ none ∧ s.buf[0]? = some 0xC8#8 ∧
    ∃ l : Byte, s.buf[1]? = some l ∧ 2 ≤ l.toNat ∧ l.toNat ≤ 62 ∧ l.toNat + 2 ≤ s.buf.length

theorem syncChoice_of_frameWaits {s : State} (h : frameWaits s) : syncChoice s = .stall := by
  obtain ⟨hfrm, h0, l, h1, hlo, hhi, hlen⟩ := h
  have hvalid : frmValid s = true := by simpa [frmValid, Option.isSome_iff_ne_none] using hfrm
  rw [syncChoice_of_complete h0 h1 hlo hhi hlen, if_pos hvalid]

/-- The selections, each with the guard that makes it. -/
inductive Selected (s : State) : SyncChoice → Prop
  | clear (h : canClear s = true) : Selected s (.step .clear)
  | trim (k : Nat) (h : canTrim k s = true) : Selected s (.step (.trim k))
  | drop1 (l : Byte) (h : canDrop1 l s = true) : Selected s (.step (.drop1 l))
  | extract (l : Byte) (h : canExtract l s = true) : Selected s (.step (.extract l))
  | retNeedMore (h : canRetNeedMore s = true) : Selected s (.step .retNeedMore)
  | hold (h : needMore s = true) : Selected s .hold
  | stall (h : frameWaits s) : Selected s .stall

/-- With the sync byte at the front, one of the guards of R87 to R90 holds. -/
theorem exists_selected_of_front {s : State} (hmay : mayScan s = true) (h0 : s.buf[0]? = some syncByte) :
    ∃ c, syncChoice s = c ∧ Selected s c := by
  by_cases hshort : s.buf.length < 2
  · have hph : s.ph = .scan := ((mayScan_iff s).mp hmay).resolve_right (Nat.not_le.mpr hshort)
    have hret := (canRetNeedMore_iff s).mpr ⟨hph, h0, .inl hshort⟩
    exact ⟨_, syncChoice_of_canRetNeedMore hret, .retNeedMore hret⟩
  have h1 := getElem?_eq_some_byteAt (Nat.not_lt.mp hshort)
  generalize byteAt s.buf 1 = l at h1
  cases hbad : badLength l with
  | true =>
    have hdrop := (canDrop1_iff s l).mpr ⟨h0, h1, (badLength_iff l).mp hbad⟩
    exact ⟨_, syncChoice_of_canDrop1 hdrop, .drop1 l hdrop⟩
  | false =>
    obtain ⟨hlo, hhi⟩ := (badLength_eq_false_iff l).mp hbad
    by_cases hlen : s.buf.length < l.toNat + 2
    · cases hph : s.ph with
      | scan =>
        have hret := (canRetNeedMore_iff s).mpr ⟨hph, h0, .inr ⟨l, h1, hlo, hhi, hlen⟩⟩
        exact ⟨_, syncChoice_of_canRetNeedMore hret, .retNeedMore hret⟩
      | entry =>
        have hneed := (needMore_iff s).mpr ⟨hph, .inr ⟨h0, l, h1, hlo, hhi, hlen⟩⟩
        exact ⟨_, syncChoice_of_needMore hneed, .hold hneed⟩
    · by_cases hfrm : s.frm = none
      · have hext := (canExtract_iff s l).mpr ⟨h0, h1, hlo, hhi, Nat.not_lt.mp hlen, hfrm⟩
        exact ⟨_, syncChoice_of_canExtract hext, .extract l hext⟩
      · have hwaits : frameWaits s := ⟨hfrm, h0, l, h1, hlo, hhi, Nat.not_lt.mp hlen⟩
        exact ⟨_, syncChoice_of_frameWaits hwaits, .stall hwaits⟩

/-- In every state a guard holds, and the choice is the one it makes. -/
theorem exists_selected (s : State) : ∃ c, syncChoice s = c ∧ Selected s c := by
  cases hmay : mayScan s with
  | false =>
    obtain ⟨hph, hlen⟩ := (not_mayScan_iff s).mp hmay
    have hneed := needMore_of_short hph hlen
    exact ⟨_, syncChoice_of_needMore hneed, .hold hneed⟩
  | true =>
    match hfind : findSync s.buf with
    | none =>
      have hclear : canClear s = true := by simp [canClear, hmay, hfind]
      exact ⟨_, syncChoice_of_canClear hclear, .clear hclear⟩
    | some (k + 1) =>
      have htrim : canTrim (k + 1) s = true := by simp [canTrim, hmay, hfind]
      exact ⟨_, syncChoice_of_canTrim htrim, .trim _ htrim⟩
    | some 0 => exact exists_selected_of_front hmay ((findSync_eq_some_iff _ _).mp hfind).1

/-- A choice that is made has its guard. -/
theorem selected_of_syncChoice {s : State} {c : SyncChoice} (h : syncChoice s = c) : Selected s c := by
  obtain ⟨d, hd, hselected⟩ := exists_selected s
  rwa [← h, hd]

theorem syncChoice_eq_clear_iff (s : State) : syncChoice s = .step .clear ↔ canClear s = true :=
  ⟨fun h => by cases selected_of_syncChoice h; assumption, syncChoice_of_canClear⟩

theorem syncChoice_eq_trim_iff (s : State) (k : Nat) : syncChoice s = .step (.trim k) ↔ canTrim k s = true :=
  ⟨fun h => by cases selected_of_syncChoice h; assumption, syncChoice_of_canTrim⟩

theorem syncChoice_eq_drop1_iff (s : State) (l : Byte) : syncChoice s = .step (.drop1 l) ↔ canDrop1 l s = true :=
  ⟨fun h => by cases selected_of_syncChoice h; assumption, syncChoice_of_canDrop1⟩

theorem syncChoice_eq_extract_iff (s : State) (l : Byte) :
    syncChoice s = .step (.extract l) ↔ canExtract l s = true :=
  ⟨fun h => by cases selected_of_syncChoice h; assumption, syncChoice_of_canExtract⟩

theorem syncChoice_eq_retNeedMore_iff (s : State) : syncChoice s = .step .retNeedMore ↔ canRetNeedMore s = true :=
  ⟨fun h => by cases selected_of_syncChoice h; assumption, syncChoice_of_canRetNeedMore⟩

theorem syncChoice_eq_hold_iff (s : State) : syncChoice s = .hold ↔ needMore s = true :=
  ⟨fun h => by cases selected_of_syncChoice h; assumption, syncChoice_of_needMore⟩

theorem syncChoice_eq_stall_iff (s : State) : syncChoice s = .stall ↔ frameWaits s :=
  ⟨fun h => by cases selected_of_syncChoice h; assumption, syncChoice_of_frameWaits⟩

theorem isSyncRow_of_syncChoice {s : State} {i : Instr} (h : syncChoice s = .step i) : i.isSyncRow = true := by
  cases selected_of_syncChoice h with
  | clear | trim | drop1 | extract | retNeedMore => rfl

/-- Settles O21: each choice is the guard of its rule, and `Selected` has no row but the five. -/
theorem selectionIsTheGuards : Obligations.SelectionIsTheGuards := fun s =>
  ⟨(syncChoice_eq_clear_iff s).trans (canClear_iff s),
    fun k => (syncChoice_eq_trim_iff s k).trans (canTrim_iff s k),
    (syncChoice_eq_retNeedMore_iff s).trans (canRetNeedMore_iff s),
    fun l => (syncChoice_eq_drop1_iff s l).trans (canDrop1_iff s l),
    fun l => (syncChoice_eq_extract_iff s l).trans (canExtract_iff s l),
    syncChoice_eq_stall_iff s, fun _ => isSyncRow_of_syncChoice⟩

/-- Settles O22: `need_more` is the guard of HOLD, written out by `needMore_iff`. -/
theorem needMoreExactlyInHold : Obligations.NeedMoreExactlyInHold := fun s =>
  ⟨(syncChoice_eq_hold_iff s).symm, (syncChoice_eq_hold_iff s).trans (needMore_iff s)⟩

/-! The five steps with their guards true (R85 to R90). -/

/-- Settles O15: `canClear` holds, and dropping all of BUF leaves it empty. -/
theorem clearDiscardsTheBuffer : Obligations.ClearDiscardsTheBuffer := by
  intro s hmay hnone
  have hbuf : s.buf.drop s.buf.length = [] := List.drop_length
  refine (guarded_pos ((canClear_iff s).mpr ⟨hmay, hnone⟩) _ _).trans ?_
  rw [State.endCall, State.discard, State.removeFront, hbuf]

/-- Settles O16: the premises are `canTrim`. -/
theorem trimDropsTheNoise : Obligations.TrimDropsTheNoise := fun k s hmay hk hsync hfirst =>
  guarded_pos ((canTrim_iff s k).mpr ⟨hmay, hk, hsync, hfirst⟩) _ _

/-- Settles O17: the premises are `canDrop1`. -/
theorem drop1DropsTheBogusSync : Obligations.Drop1DropsTheBogusSync := fun l s h0 h1 hbad =>
  guarded_pos ((canDrop1_iff s l).mpr ⟨h0, h1, hbad⟩) _ _

/-- Settles O18: the premises are `canExtract`. -/
theorem extractCopiesTheFrame : Obligations.ExtractCopiesTheFrame := fun l s h0 h1 hlo hhi hlen hfrm =>
  guarded_pos ((canExtract_iff s l).mpr ⟨h0, h1, hlo, hhi, hlen, hfrm⟩) _ _

/-- Settles O19: the premises are `canRetNeedMore`. -/
theorem retNeedMoreChangesThePhase : Obligations.RetNeedMoreChangesThePhase := fun s hph h0 hlacks =>
  guarded_pos ((canRetNeedMore_iff s).mpr ⟨hph, h0, hlacks⟩) _ _

/-! Steps with their guards false (00_scope.md R11; log 2). -/

theorem exec_sync_idle {i : Instr} {s : State} (hrow : i.isSyncRow = true) (h : syncChoice s ≠ .step i) :
    exec i s = .next s.idle := by
  cases i with
  | clear => exact guarded_neg (by simpa [syncChoice_eq_clear_iff] using h) _ _
  | trim k => exact guarded_neg (by simpa [syncChoice_eq_trim_iff] using h) _ _
  | drop1 l => exact guarded_neg (by simpa [syncChoice_eq_drop1_iff] using h) _ _
  | extract l => exact guarded_neg (by simpa [syncChoice_eq_extract_iff] using h) _ _
  | retNeedMore => exact guarded_neg (by simpa [syncChoice_eq_retNeedMore_iff] using h) _ _
  | gps | battery | linkStatistics | attitude | flightMode | unknown | checksumMismatch | malformedPayload | feed
  | decode | take | reset => cases hrow

theorem retire_idle_of_stores {i : Instr} {e : Event} {s : State} (h : s.frm = none ∨ s.evt ≠ none) :
    retire i e s = .next s.idle := by
  unfold retire
  split <;> simp_all

theorem execDecode_idle_of_stores {s : State} (h : s.frm = none ∨ s.evt ≠ none) : execDecode s = .next s.idle := by
  unfold execDecode
  split <;> simp_all

/-- A row that FRM does not select has no effect, whether or not EVT is free. -/
theorem retire_idle_of_other {i j : Instr} {e : Event} {s : State} {f : List Byte} (hf : s.frm = some f)
    (hj : decodeFrame f = .instr j) (hne : j ≠ i) : retire i e s = .next s.idle := by
  cases he : s.evt with
  | none => simp [retire, hf, he, hj, hne]
  | some r => exact retire_idle_of_stores (.inr (by simp [he]))

theorem exec_take_of_none {s : State} (h : s.evt = none) : exec .take s = .next s.idle := by
  simp [exec, execTake, h]

theorem exec_take_of_some {s : State} {r : EvtReg} (h : s.evt = some r) :
    exec .take s =
      .next { s with evt := none, outHist := s.outHist ++ [r.ev], cleared := false, dropCount := none } := by
  simp [exec, execTake, h]

/-- Settles O20: each disabled form answers `idle`. -/
theorem falseGuardHasNoEffect : Obligations.FalseGuardHasNoEffect := by
  rintro i s (⟨hrow, hne⟩ | ⟨hrow | rfl, hstores⟩ | ⟨hrow, f, j, hf, hj, hne⟩ | ⟨rfl, hevt⟩)
  · exact exec_sync_idle hrow hne
  · obtain ⟨e, he⟩ := exists_rowEvent hrow s.cfg
    exact (exec_eq_retire he).trans (retire_idle_of_stores hstores)
  · exact execDecode_idle_of_stores hstores
  · obtain ⟨e, he⟩ := exists_rowEvent hrow s.cfg
    exact (exec_eq_retire he).trans (retire_idle_of_other hf hj hne)
  · exact exec_take_of_none hevt

/-- Settles O44: by whether EVT is occupied. -/
theorem takeHandsOverTheEvent : Obligations.TakeHandsOverTheEvent :=
  ⟨fun _ _ => exec_take_of_some, fun _ => exec_take_of_none⟩

/-- Settles O49: RESET has no guard. -/
theorem resetRestartsTheBlock : Obligations.ResetRestartsTheBlock := fun _ => rfl

end Sys2Proof.Machine

/-! ## FEED (40_frame_assembler.md R80, R81) -/

namespace Sys2Proof.Machine

open Safety

theorem hasRoom_iff (s : State) :
    hasRoom s = true ↔ ∀ cap, s.cfg.bufCap = some cap → s.buf.length < cap.val := by
  unfold hasRoom
  split <;> simp_all

theorem inReady_iff (s : State) : inReady s = true ↔ s.ph = .entry ∧ hasRoom s = true := by
  simp [inReady]

theorem exec_feed_of_not_inReady {s : State} (h : inReady s = false) (b : Byte) :
    exec (.feed b) s = .next s.idle :=
  guarded_neg h _ _

/-- Settles O12: the two sides are `in_ready` true and false. -/
theorem feedAppendsTheByte : Obligations.FeedAppendsTheByte := by
  intro b s
  refine ⟨fun hph hroom => exec_feed_of_inReady (inReady_of_entry hph ((hasRoom_iff s).mpr hroom)) b, fun hnot => ?_⟩
  refine exec_feed_of_not_inReady ?_ b
  rw [← Bool.not_eq_true, inReady_iff, hasRoom_iff]
  rintro ⟨hph, hroom⟩
  obtain hscan | ⟨cap, hcap, hfull⟩ := hnot
  · simp [hph] at hscan
  · exact Nat.not_lt.mpr hfull (hroom cap hcap)

theorem roomFor_iff (n : Nat) (s : State) :
    roomFor n s = true ↔ ∀ cap, s.cfg.bufCap = some cap → s.buf.length + n ≤ cap.val := by
  unfold roomFor
  split <;> simp_all

/-- Room for a chunk is room for its first byte, and for the rest after it. -/
theorem room_of_roomFor_succ {s : State} {n : Nat} (h : roomFor (n + 1) s = true) (b : Byte) :
    hasRoom s = true ∧ roomFor n (s.append b) = true := by
  rw [roomFor_iff] at h
  rw [hasRoom_iff, roomFor_iff]
  simp only [State.append_cfg, State.append_buf, List.length_append, List.length_singleton]
  exact ⟨fun cap hcap => by have := h cap hcap; omega, fun cap hcap => by have := h cap hcap; omega⟩

theorem feedAll_cons {s : State} (h : inReady s = true) (b : Byte) (bs : List Byte) :
    feedAll (b :: bs) s = feedAll bs (s.append b) := by
  rw [feedAll, exec_feed_of_inReady h]

/-- Settles O14: by induction on the chunk, each FEED appending its byte to what the earlier ones appended. -/
theorem chunkIsFedByteByByte : Obligations.ChunkIsFedByteByByte := by
  intro bytes
  induction bytes with
  | nil => exact fun _ _ _ => rfl
  | cons b bs ih =>
    intro s hph hroom
    obtain ⟨hfirst, hrest⟩ := room_of_roomFor_succ hroom b
    rw [feedAll_cons (inReady_of_entry hph hfirst), ih (s.append b) hph hrest, if_neg (List.cons_ne_nil b bs)]
    split
    · next hnil =>
      subst hnil
      rfl
    · simp only [State.append, List.append_assoc, List.singleton_append]

end Sys2Proof.Machine

/-! ## What an instruction can do (10_state.md R21, R28; 20_memory.md R40 to R42) -/

namespace Sys2Proof.Machine

/-- The five SYNC steps, each taken with its guard. -/
inductive SyncMove (s : State) : Instr → State → Prop
  | clear (h : canClear s = true) :
    SyncMove s .clear
      { (s.discard s.buf.length).endCall .nothing with cleared := true, lastSync := some .clear }
  | trim (k : Nat) (h : canTrim k s = true) :
    SyncMove s (.trim k) { s.discard k with ph := .scan, lastSync := some .trim }
  | drop1 (l : Byte) (h : canDrop1 l s = true) :
    SyncMove s (.drop1 l) { s.discard 1 with ph := .scan, lastSync := some .drop1 }
  | extract (l : Byte) (h : canExtract l s = true) :
    SyncMove s (.extract l)
      { (s.removeFront (totalLength l)).endCall .frame with
        frm := some (s.buf.take (totalLength l))
        frameHist := s.frameHist ++ [(s.pos, s.buf.take (totalLength l))]
        lastSync := some .extract }
  | retNeedMore (h : canRetNeedMore s = true) :
    SyncMove s .retNeedMore { s.idle.endCall .needMore with lastSync := some .retNeedMore }

/-- All an instruction that answers a next state can do. -/
inductive Effect (s : State) : Instr → State → Prop
  | idle (i : Instr) : Effect s i s.idle
  | feed (b : Byte) (h : inReady s = true) : Effect s (.feed b) (s.append b)
  | sync {i : Instr} {t : State} (h : SyncMove s i t) : Effect s i t
  | deliver {i : Instr} {f : List Byte} {e : Event} (hrow : i.isFrameRow = true ∨ i = .decode) (hfrm : s.frm = some f)
      (hevt : s.evt = none) (he : decodeEvent s.cfg f = some e) : Effect s i (s.deliver f e)
  | take {r : EvtReg} (hevt : s.evt = some r) :
    Effect s .take { s with evt := none, outHist := s.outHist ++ [r.ev], cleared := false, dropCount := none }
  | reset {t : State} (h : exec .reset s = .next t) : Effect s .reset t

theorem isFrameRow_eq_false_of_isSyncRow {i : Instr} (h : i.isSyncRow = true) : i.isFrameRow = false := by
  cases i with
  | clear | trim | drop1 | extract | retNeedMore => rfl
  | gps | battery | linkStatistics | attitude | flightMode | unknown | checksumMismatch | malformedPayload | feed
  | decode | take | reset => cases h

theorem exec_of_syncChoice {s : State} {i : Instr} (h : syncChoice s = .step i) :
    ∃ t, exec i s = .next t ∧ SyncMove s i t := by
  cases selected_of_syncChoice h with
  | clear hg => exact ⟨_, guarded_pos hg _ _, .clear hg⟩
  | trim k hg => exact ⟨_, guarded_pos hg _ _, .trim k hg⟩
  | drop1 l hg => exact ⟨_, guarded_pos hg _ _, .drop1 l hg⟩
  | extract l hg => exact ⟨_, guarded_pos hg _ _, .extract l hg⟩
  | retNeedMore hg => exact ⟨_, guarded_pos hg _ _, .retNeedMore hg⟩

theorem syncMove_of_exec {s t : State} {i : Instr} (h : syncChoice s = .step i) (hexec : exec i s = .next t) :
    SyncMove s i t := by
  obtain ⟨u, hu, hmove⟩ := exec_of_syncChoice h
  obtain rfl : u = t := by simpa [hu] using hexec
  exact hmove

theorem effect_of_exec_sync {s t : State} {i : Instr} (hrow : i.isSyncRow = true) (h : exec i s = .next t) :
    Effect s i t := by
  by_cases hchoice : syncChoice s = .step i
  · exact .sync (syncMove_of_exec hchoice h)
  · obtain rfl : s.idle = t := by simpa [exec_sync_idle hrow hchoice] using h
    exact .idle i

theorem effect_of_exec_row {s t : State} {i : Instr} (hrow : i.isFrameRow = true) (h : exec i s = .next t) :
    Effect s i t := by
  obtain ⟨e, he⟩ := exists_rowEvent hrow s.cfg
  rw [exec_eq_retire he] at h
  obtain ⟨f, hfrm, hevt, hi, rfl⟩ | rfl := retire_next h
  · exact .deliver (.inl hrow) hfrm hevt (rowEvent_of_decodeFrame s.cfg hi ▸ he)
  · exact .idle i

/-- Everything an instruction can answer as a next state. -/
theorem effect_of_exec {s t : State} {i : Instr} (h : exec i s = .next t) : Effect s i t := by
  cases i with
  | gps | battery | linkStatistics | attitude | flightMode | unknown | checksumMismatch | malformedPayload =>
    exact effect_of_exec_row rfl h
  | clear | trim | drop1 | extract | retNeedMore => exact effect_of_exec_sync rfl h
  | feed b =>
    obtain ⟨hready, rfl⟩ | ⟨-, rfl⟩ := (guarded_next_iff _ _ _ _).mp h
    · exact .feed b hready
    · exact .idle _
  | decode =>
    obtain ⟨f, e, hfrm, hevt, he, rfl⟩ | rfl := execDecode_next h
    · exact .deliver (.inr rfl) hfrm hevt he
    · exact .idle _
  | take =>
    obtain ⟨r, hevt, rfl⟩ | ⟨-, rfl⟩ := execTake_next h
    · exact .take hevt
    · exact .idle _
  | reset => exact .reset h

/-! The bytes that a SYNC step removes from the front (20_memory.md R42). -/

/-- How many they are. -/
def bytesRemoved (s : State) : Instr → Nat
  | .clear => s.buf.length
  | .trim k => k
  | .drop1 _ => 1
  | .extract l => totalLength l
  | _ => 0

section SyncMoves

variable {s t : State} {i : Instr}

theorem SyncMove.isSyncRow (h : SyncMove s i t) : i.isSyncRow = true := by
  cases h with
  | clear | trim | drop1 | extract | retNeedMore => rfl

theorem SyncMove.buf_eq (h : SyncMove s i t) : t.buf = s.buf.drop (bytesRemoved s i) := by
  cases h with
  | clear | trim | drop1 | extract | retNeedMore => rfl

theorem SyncMove.pos_eq (h : SyncMove s i t) : t.pos = s.pos + bytesRemoved s i := by
  cases h with
  | clear | trim | drop1 | extract | retNeedMore => rfl

theorem SyncMove.inHist_eq (h : SyncMove s i t) : t.inHist = s.inHist := by
  cases h with
  | clear | trim | drop1 | extract | retNeedMore => rfl

theorem SyncMove.cfg_eq (h : SyncMove s i t) : t.cfg = s.cfg := by
  cases h with
  | clear | trim | drop1 | extract | retNeedMore => rfl

/-- The first sync byte that TRIM leaves at the front is there. -/
theorem trim_lt_of_canTrim {k : Nat} (h : canTrim k s = true) : k < s.buf.length := by
  obtain ⟨-, -, hsync, -⟩ := (canTrim_iff s k).mp h
  exact (List.getElem?_eq_some_iff.mp hsync).1

/-- BUF holds what a step removes (20_memory.md R45). -/
theorem SyncMove.bytesRemoved_le (h : SyncMove s i t) : bytesRemoved s i ≤ s.buf.length := by
  cases h with
  | clear => exact Nat.le_refl _
  | trim k hg => exact (trim_lt_of_canTrim hg).le
  | drop1 l hg =>
    obtain ⟨h0, -, -⟩ := (canDrop1_iff s l).mp hg
    exact (List.getElem?_eq_some_iff.mp h0).1
  | extract l hg =>
    obtain ⟨-, -, -, -, hlen, -⟩ := (canExtract_iff s l).mp hg
    exact hlen
  | retNeedMore => exact Nat.zero_le _

theorem SyncMove.buf_length_eq (h : SyncMove s i t) : t.buf.length + bytesRemoved s i = s.buf.length := by
  rw [h.buf_eq, List.length_drop, Nat.sub_add_cancel h.bytesRemoved_le]

end SyncMoves

/-- Settles O23: the number of bytes of each row is `bytesRemoved`, and what stays is BUF without them. -/
theorem frontRemovalShiftsOffsets : Obligations.FrontRemovalShiftsOffsets := by
  intro i s t n hchoice hexec hn
  have hbuf : t.buf = s.buf.drop n := by
    rw [(syncMove_of_exec hchoice hexec).buf_eq]
    obtain ⟨rfl, rfl⟩ | rfl | ⟨l, rfl, rfl⟩ | ⟨l, rfl, rfl⟩ | ⟨rfl, rfl⟩ := hn
    all_goals rfl
  exact ⟨by rw [hbuf, List.length_drop], fun a => by rw [readBuf, hbuf, List.getElem?_drop, readBuf]⟩

/-- After EXTRACT the frame is read where BUF held it, and nothing beyond it. -/
theorem readFrm_of_take {s t : State} {n : Nat} (hfrm : t.frm = some (s.buf.take n)) (a : Nat) :
    readFrm t a = if a < n then readBuf s a else none := by
  rw [readFrm, hfrm, Option.bind_some, List.getElem?_take, readBuf]

/-- Settles O24: by the five steps and the idle one; EXTRACT, when selected, takes the front of BUF. -/
theorem syncRowsLeaveTheRest : Obligations.SyncRowsLeaveTheRest := by
  intro i s t hrow hexec
  have hextract : ∀ l : Byte, i = .extract l → syncChoice s = .step i →
      (∀ a < l.toNat + 2, readFrm t a = readBuf s a) ∧ ∀ a, l.toNat + 2 ≤ a → readFrm t a = none := by
    rintro l rfl hchoice
    have hfrm : t.frm = some (s.buf.take (l.toNat + 2)) := by cases syncMove_of_exec hchoice hexec; rfl
    exact ⟨fun a ha => by rw [readFrm_of_take hfrm, if_pos ha],
      fun a ha => by rw [readFrm_of_take hfrm, if_neg (Nat.not_lt.mpr ha)]⟩
  cases effect_of_exec hexec with
  | idle => exact ⟨rfl, rfl, rfl, rfl, rfl, rfl, rfl, rfl, fun _ => ⟨rfl, fun _ => rfl⟩, hextract⟩
  | sync hmove =>
    cases hmove with
    | clear | trim | drop1 | retNeedMore =>
      exact ⟨rfl, rfl, rfl, rfl, rfl, rfl, rfl, rfl, fun _ => ⟨rfl, fun _ => rfl⟩, hextract⟩
    | extract l =>
      exact ⟨rfl, rfl, rfl, rfl, rfl, rfl, rfl, rfl, fun hne => absurd rfl (hne l), hextract⟩
  | deliver hdec =>
    obtain hframe | rfl := hdec
    · simp [isFrameRow_eq_false_of_isSyncRow hrow] at hframe
    · cases hrow
  | feed | take | reset => cases hrow

/-- No instruction but FEED makes BUF longer (20_memory.md R41). -/
theorem Effect.buf_length_le {s t : State} {i : Instr} (h : Effect s i t) (hi : ∀ b, i ≠ .feed b) :
    t.buf.length ≤ s.buf.length := by
  cases h with
  | idle | deliver | take => exact Nat.le_refl _
  | feed b => exact absurd rfl (hi b)
  | sync hmove =>
    have := hmove.buf_length_eq
    omega
  | reset hreset =>
    cases hreset
    exact Nat.zero_le _

/-- Settles O13: the new byte stands behind the old ones. -/
theorem appendKeepsOffsets : Obligations.AppendKeepsOffsets := by
  refine ⟨fun b s t hready hexec => ?_, fun i s t hi hexec => (effect_of_exec hexec).buf_length_le hi⟩
  obtain rfl : s.append b = t := by simpa [exec_feed_of_inReady hready] using hexec
  refine ⟨List.getElem?_concat_length, fun a ha => ?_, by simp⟩
  rw [readBuf, State.append_buf, List.getElem?_append, readBuf]
  split
  · rfl
  · rw [List.getElem?_eq_none (by simp; omega), List.getElem?_eq_none (by omega)]

/-- Settles O47: of the effects, CLEAR alone sets `cleared`, and it, TRIM and DROP1 alone put out a count, of the bytes
they remove. -/
theorem pulsesBelongToTheStep : Obligations.PulsesBelongToTheStep := by
  intro i s t hexec
  cases effect_of_exec hexec with
  | idle | feed | deliver | take => exact ⟨nofun, nofun⟩
  | reset hreset =>
    cases hreset
    exact ⟨nofun, nofun⟩
  | sync hmove =>
    have hlen := hmove.buf_length_eq
    cases hmove with
    | clear =>
      refine ⟨fun _ => ⟨rfl, rfl, List.drop_length⟩, ?_⟩
      rintro n ⟨⟩
      exact ⟨.inl rfl, (Nat.add_comm _ _).trans hlen, rfl, rfl⟩
    | trim k =>
      refine ⟨nofun, ?_⟩
      rintro n ⟨⟩
      exact ⟨.inr (.inl ⟨k, rfl⟩), (Nat.add_comm _ _).trans hlen, rfl, rfl⟩
    | drop1 l =>
      refine ⟨nofun, ?_⟩
      rintro n ⟨⟩
      exact ⟨.inr (.inr ⟨l, rfl⟩), (Nat.add_comm _ _).trans hlen, rfl, rfl⟩
    | extract | retNeedMore => exact ⟨nofun, nofun⟩

/-- DECODE writes to EVT what its frame and the configuration give. -/
theorem evt_of_exec_decode {s t : State} {f : List Byte} (hfrm : s.frm = some f) (hevt : s.evt = none)
    (h : exec .decode s = .next t) : ∃ e, decodeEvent s.cfg f = some e ∧ t.evt = some { ev := e, frame := f } := by
  cases hok : frameOk f with
  | false => simp [exec_decode_refused hfrm hevt hok] at h
  | true =>
    obtain ⟨-, e, -, -, he⟩ := exists_decode_of_frameOk s.cfg hok
    obtain rfl : s.deliver f e = t := by simpa [exec_decode_delivers hfrm hevt he] using h
    exact ⟨e, he, rfl⟩

/-- Settles O42: `deliver` writes FRM, EVT, ACC and the pulses alone, and what it writes to EVT is a function of the
frame and the configuration. -/
theorem decodeLeavesTheBuffer : Obligations.DecodeLeavesTheBuffer := by
  refine ⟨fun i s t hrow hexec => ?_, fun s s' t t' hfrm hne hcfg hevt hevt' hexec hexec' => ?_⟩
  · cases effect_of_exec hexec with
    | idle | deliver =>
      exact ⟨rfl, rfl, rfl, rfl, rfl, rfl, rfl, rfl, rfl, rfl, rfl, rfl, fun _ => rfl⟩
    | sync hmove =>
      obtain hframe | rfl := hrow
      · simp [isFrameRow_eq_false_of_isSyncRow hmove.isSyncRow] at hframe
      · cases hmove.isSyncRow
    | feed | take | reset => simp [Instr.isFrameRow] at hrow
  · obtain ⟨f, hf⟩ := Option.ne_none_iff_exists'.mp hne
    obtain ⟨e, he, ht⟩ := evt_of_exec_decode hf hevt hexec
    obtain ⟨e', he', ht'⟩ := evt_of_exec_decode (hfrm ▸ hf) hevt' hexec'
    have heq : e = e' := by simpa [hcfg, he'] using he.symm
    rw [ht, ht', heq]
    exact ⟨rfl, Option.some_ne_none _⟩

end Sys2Proof.Machine

/-! ## One step of the machine (00_scope.md R12; log 1) -/

namespace Sys2Proof.Machine

open Safety

section Turns

variable {a : Agent} {s : State}

theorem fetch_src {b : Byte} {rest : List Byte} (hinp : s.inp = b :: rest) (hready : inReady s = true) :
    fetch .src s = .run (.feed b) { s with inp := rest } := by
  simp [fetch, hinp, hready]

theorem fetch_sync {i : Instr} (h : syncChoice s = .step i) : fetch .sync s = .run i s := by
  simp [fetch, h]

theorem fetch_dec {f : List Byte} {i : Instr} (hfrm : s.frm = some f) (hevt : s.evt = none)
    (hi : decodeFrame f = .instr i) : fetch .dec s = .run i s := by
  simp [fetch, hfrm, hevt, hi]

theorem fetch_sink (h : s.evt ≠ none) : fetch .sink s = .run .take s := by
  have hevt : evtValid s = true := by simpa [evtValid, Option.isSome_iff_ne_none] using h
  simp [fetch, hevt]

/-- All that a turn can come to: nothing, an instruction run in the state as it is but for the byte that SRC hands over,
or a frame that breaks (I2). -/
theorem fetch_cases (a : Agent) (s : State) :
    (enabled a s = false ∧ fetch a s = .nothing) ∨
      (enabled a s = true ∧ ∃ i inp, fetch a s = .run i { s with inp := inp }) ∨
      (enabled a s = true ∧ fetch a s = .broken ∧ frmOk s = false) := by
  cases a with
  | src =>
    cases hinp : s.inp with
    | nil => exact .inl ⟨by simp [enabled, hinp], by simp [fetch, hinp]⟩
    | cons b rest =>
      cases hready : inReady s with
      | false => exact .inl ⟨by simp [enabled, hready], by simp [fetch, hinp, hready]⟩
      | true => exact .inr (.inl ⟨by simp [enabled, hinp, hready], .feed b, rest, fetch_src hinp hready⟩)
  | sync =>
    cases hchoice : syncChoice s with
    | step i => exact .inr (.inl ⟨by simp [enabled, hchoice], i, s.inp, fetch_sync hchoice⟩)
    | hold | stall => exact .inl ⟨by simp [enabled, hchoice], by simp [fetch, hchoice]⟩
  | dec =>
    have hguard : enabled .dec s = (s.frm.isSome && !s.evt.isSome) := rfl
    obtain hfrm | ⟨f, hfrm⟩ := Option.eq_none_or_eq_some s.frm
    · exact .inl ⟨by simp [hguard, hfrm], by simp [fetch, hfrm]⟩
    obtain hevt | ⟨r, hevt⟩ := Option.eq_none_or_eq_some s.evt
    · have hen : enabled .dec s = true := by simp [hguard, hfrm, hevt]
      cases hdecode : decodeFrame f with
      | instr i => exact .inr (.inl ⟨hen, i, s.inp, fetch_dec hfrm hevt hdecode⟩)
      | reject q =>
        have hbad := (decodeFrame_reject_iff f).mp ⟨q, hdecode⟩
        exact .inr (.inr ⟨hen, by simp [fetch, hfrm, hevt, hdecode], by simp [frmOk, hfrm, hbad]⟩)
    · exact .inl ⟨by simp [hguard, hevt], by simp [fetch, hfrm, hevt]⟩
  | sink =>
    cases hevt : evtValid s with
    | false => exact .inl ⟨hevt, by simp [fetch, hevt]⟩
    | true => exact .inr (.inl ⟨hevt, .take, s.inp, by simp [fetch, hevt]⟩)
  | host => exact .inr (.inl ⟨rfl, .reset, s.inp, rfl⟩)

/-- An agent whose guard is false has nothing to run. -/
theorem fetch_of_not_enabled (h : enabled a s = false) : fetch a s = .nothing := by
  obtain ⟨-, hfetch⟩ | ⟨hen, -⟩ | ⟨hen, -⟩ := fetch_cases a s
  · exact hfetch
  · simp [h] at hen
  · simp [h] at hen

theorem fetch_eq_run {i : Instr} {u : State} (h : fetch a s = .run i u) : ∃ inp, u = { s with inp := inp } := by
  obtain ⟨-, hfetch⟩ | ⟨-, j, inp, hfetch⟩ | ⟨-, hfetch, -⟩ := fetch_cases a s
  · simp [hfetch] at h
  · cases hfetch.symm.trans h
    exact ⟨inp, rfl⟩
  · simp [hfetch] at h

/-- A turn is broken only by a frame that breaks (I2). -/
theorem frmOk_of_fetch_broken (h : fetch a s = .broken) : frmOk s = false := by
  obtain ⟨-, hfetch⟩ | ⟨-, j, inp, hfetch⟩ | ⟨-, -, hbad⟩ := fetch_cases a s
  · simp [hfetch] at h
  · simp [hfetch] at h
  · exact hbad

end Turns

/-- The environment's turn-taking alone changes when a turn begins. -/
theorem advance_eq (s : State) : ∃ sched tick, advance s = { s with sched := sched, tick := tick } := by
  unfold advance
  split
  · exact ⟨_, _, rfl⟩
  · exact ⟨_, _, rfl⟩

section StepCases

variable {s : State}

theorem step_of_run {i : Instr} {u : State} (h : fetch (nextAgent s) (advance s) = .run i u) : step s = exec i u := by
  simp [step, h]

theorem step_of_nothing (h : fetch (nextAgent s) (advance s) = .nothing) : step s = .next (advance s).idle := by
  simp [step, h]

/-- A step is the effect of an instruction on the state, the environment's part of it apart. -/
theorem effect_of_step {t : State} (h : step s = .next t) :
    ∃ inp sched tick i, Effect { s with inp := inp, sched := sched, tick := tick } i t := by
  obtain ⟨sched, tick, hadv⟩ := advance_eq s
  cases hfetch : fetch (nextAgent s) (advance s) with
  | run i u =>
    rw [step_of_run hfetch] at h
    obtain ⟨inp, rfl⟩ := fetch_eq_run hfetch
    rw [hadv] at h
    exact ⟨inp, sched, tick, i, effect_of_exec h⟩
  | nothing =>
    rw [step_of_nothing hfetch, hadv] at h
    cases h
    exact ⟨s.inp, sched, tick, .take, .idle _⟩
  | broken => simp [step, hfetch] at h

/-- What does not speak of the environment and every effect keeps, every step keeps. -/
theorem step_keeps {P : State → Prop}
    (henv : ∀ (s : State) inp sched tick, P s → P { s with inp := inp, sched := sched, tick := tick })
    (heffect : ∀ (s t : State) i, P s → Effect s i t → P t) {t : State} (hs : P s) (h : step s = .next t) : P t := by
  obtain ⟨inp, sched, tick, i, heff⟩ := effect_of_step h
  exact heffect _ t i (henv s inp sched tick hs) heff

end StepCases

theorem Effect.cfg_eq {s t : State} {i : Instr} (h : Effect s i t) : t.cfg = s.cfg := by
  cases h with
  | idle | feed | deliver | take => rfl
  | sync hmove => exact hmove.cfg_eq
  | reset hreset =>
    cases hreset
    rfl

end Sys2Proof.Machine

/-! ## The register invariants (10_state.md R33) -/

namespace Sys2Proof.Machine

open Safety

/-! The invariants as facts. -/

section Invariants

variable (s : State)

theorem capOk_iff : capOk s = true ↔ ∀ cap, s.cfg.bufCap = some cap → s.buf.length ≤ cap.val := by
  unfold capOk
  split <;> simp_all

theorem frmOk_iff : frmOk s = true ↔ ∀ f, s.frm = some f → frameOk f = true := by
  unfold frmOk
  split <;> simp_all

theorem scanOk_iff : scanOk s = true ↔ s.ph = .entry ∨ 1 ≤ s.buf.length := by
  simp [scanOk]

theorem trimOk_iff : trimOk s = true ↔ s.lastSync = some .trim → s.ph = .scan → s.buf[0]? = some syncByte := by
  cases hph : s.ph <;> simp [trimOk, hph, syncAtFront_iff, imp_iff_not_or]

theorem evtOk_iff : evtOk s = true ↔ ∀ r, s.evt = some r → decodeEvent s.cfg r.frame = some r.ev := by
  unfold evtOk
  split <;> simp_all

end Invariants

/-- The frame that EXTRACT copies keeps the length invariants (40_frame_assembler.md R90). -/
theorem frameOk_take_of_canExtract {s : State} {l : Byte} (h : canExtract l s = true) :
    frameOk (s.buf.take (totalLength l)) = true := by
  obtain ⟨h0, h1, hlo, hhi, hlen, -⟩ := (canExtract_iff s l).mp h
  have hlength : (s.buf.take (totalLength l)).length = totalLength l := List.length_take_of_le hlen
  have hbyte {o : Nat} {b : Byte} (hb : s.buf[o]? = some b) (ho : o < totalLength l) :
      byteAt (s.buf.take (totalLength l)) o = b :=
    byteAt_eq_of_getElem? (by rw [List.getElem?_take, if_pos ho, hb])
  rw [frameOk_iff, hlength, hbyte h0 (Nat.succ_pos _), hbyte h1 (Nat.succ_lt_succ (Nat.succ_pos _))]
  exact ⟨Nat.add_le_add_right hlo 2, Nat.add_le_add_right hhi 2, rfl, rfl⟩

section Kept

variable {s t : State} {i : Instr}

/-- (I1): FEED needs room, and nothing else makes BUF longer. -/
theorem Effect.keeps_capOk (h : Effect s i t) (hs : capOk s = true) : capOk t = true := by
  rw [capOk_iff] at hs ⊢
  intro cap hcap
  rw [h.cfg_eq] at hcap
  by_cases hi : ∃ b, i = .feed b
  · obtain ⟨b, rfl⟩ := hi
    cases h with
    | idle => exact hs cap hcap
    | feed _ hready =>
      have hroom := (hasRoom_iff s).mp ((inReady_iff s).mp hready).2 cap hcap
      simpa using hroom
    | sync hmove => cases hmove
    | deliver hrow => simp [Instr.isFrameRow] at hrow
  · exact (h.buf_length_le (not_exists.mp hi)).trans (hs cap hcap)

/-- (I2): a new frame in FRM is the one that EXTRACT copied. -/
theorem Effect.keeps_frmOk (h : Effect s i t) (hs : frmOk s = true) : frmOk t = true := by
  rw [frmOk_iff] at hs ⊢
  cases h with
  | idle | feed | take => exact hs
  | deliver => exact nofun
  | reset hreset =>
    cases hreset
    exact nofun
  | sync hmove =>
    cases hmove with
    | clear | trim | drop1 | retNeedMore => exact hs
    | extract l hg =>
      rintro f ⟨⟩
      exact frameOk_take_of_canExtract hg

/-- A call that goes on leaves a byte in BUF (40_frame_assembler.md R94). -/
theorem SyncMove.one_le_of_scan (h : SyncMove s i t) (hph : t.ph = .scan) : 1 ≤ t.buf.length := by
  rw [h.buf_eq, List.length_drop]
  cases h with
  | clear | extract | retNeedMore => cases hph
  | trim k hg => exact Nat.sub_pos_of_lt (trim_lt_of_canTrim hg)
  | drop1 l hg =>
    obtain ⟨-, h1, -⟩ := (canDrop1_iff s l).mp hg
    exact Nat.sub_pos_of_lt (List.getElem?_eq_some_iff.mp h1).1

/-- (I3): PH is SCAN only while a call goes on. -/
theorem Effect.keeps_scanOk (h : Effect s i t) (hs : scanOk s = true) : scanOk t = true := by
  rw [scanOk_iff] at hs ⊢
  cases h with
  | idle | deliver | take => exact hs
  | feed b hready => exact .inl ((inReady_iff s).mp hready).1
  | reset hreset =>
    cases hreset
    exact .inl rfl
  | sync hmove =>
    cases hph : t.ph with
    | entry => exact .inl rfl
    | scan => exact .inr (hmove.one_le_of_scan hph)

/-- (I4): TRIM leaves the sync byte it found at the front, and no other step is taken after a TRIM but a SYNC step. -/
theorem Effect.keeps_trimOk (h : Effect s i t) (hs : trimOk s = true) : trimOk t = true := by
  rw [trimOk_iff] at hs ⊢
  cases h with
  | idle | deliver | take => exact hs
  | feed b hready =>
    intro _ hscan
    simp [((inReady_iff s).mp hready).1] at hscan
  | reset hreset =>
    cases hreset
    exact nofun
  | sync hmove =>
    cases hmove with
    | clear | drop1 | extract | retNeedMore => exact nofun
    | trim k hg =>
      obtain ⟨-, -, hsync, -⟩ := (canTrim_iff s k).mp hg
      intro _ _
      simpa using hsync

/-- EVT takes an event with the frame that it is the decode of. -/
theorem Effect.keeps_evtOk (h : Effect s i t) (hs : evtOk s = true) : evtOk t = true := by
  rw [evtOk_iff] at hs ⊢
  cases h with
  | idle | feed => exact hs
  | take => exact nofun
  | reset hreset =>
    cases hreset
    exact nofun
  | deliver _ _ _ he =>
    rintro r ⟨⟩
    exact he
  | sync hmove =>
    cases hmove with
    | clear | trim | drop1 | extract | retNeedMore => exact hs

end Kept

theorem regsOk_iff (s : State) :
    regsOk s = true ↔ capOk s = true ∧ frmOk s = true ∧ scanOk s = true ∧ trimOk s = true ∧ evtOk s = true := by
  simp [regsOk, and_assoc]

/-- Settles O53: each of the five parts is kept by every effect. -/
theorem stepKeepsTheRegisters : Obligations.StepKeepsTheRegisters := by
  intro s t hs hstep
  refine ⟨step_keeps (P := fun s => regsOk s = true) (fun _ _ _ _ h => h) (fun s t i hs heff => ?_) hs hstep, ?_⟩
  · obtain ⟨hcap, hfrm, hscan, htrim, hevt⟩ := (regsOk_iff s).mp hs
    exact (regsOk_iff t).mpr ⟨heff.keeps_capOk hcap, heff.keeps_frmOk hfrm, heff.keeps_scanOk hscan,
      heff.keeps_trimOk htrim, heff.keeps_evtOk hevt⟩
  · obtain ⟨inp, sched, tick, i, heff⟩ := effect_of_step hstep
    exact heff.cfg_eq

end Sys2Proof.Machine

/-! ## The frames of a byte stream (40_frame_assembler.md R82, R95; 90_conflicts.md C1) -/

namespace Sys2Proof.Machine

open Safety

theorem framesAt_nil (n pos : Nat) : framesAt n pos [] = [] := by
  cases n with
  | zero | succ => rw [framesAt]

/-- Bytes of a frame already found are passed over. -/
theorem framesAt_eq_drop (n pos : Nat) (bs : List Byte) : framesAt n pos bs = framesAt 0 (pos + n) (bs.drop n) := by
  induction n generalizing pos bs with
  | zero => rfl
  | succ n ih =>
    cases bs with
    | nil => rw [List.drop_nil, framesAt_nil, framesAt_nil]
    | cons b bs => rw [framesAt, ih, List.drop_succ_cons, Nat.add_assoc, Nat.add_comm 1 n]

/-- The last byte alone starts no frame yet. -/
theorem framesAt_singleton (pos : Nat) (b : Byte) : framesAt 0 pos [b] = [] := by
  simp [framesAt]

theorem framesAt_of_ne_sync {b : Byte} (hb : b ≠ syncByte) (pos : Nat) (bs : List Byte) :
    framesAt 0 pos (b :: bs) = framesAt 0 (pos + 1) bs := by
  cases bs with
  | nil => rw [framesAt_singleton, framesAt_nil]
  | cons l rest => rw [framesAt, if_pos hb]

theorem framesAt_sync (pos : Nat) (l : Byte) (rest : List Byte) :
    framesAt 0 pos (syncByte :: l :: rest) =
      if badLength l then framesAt 0 (pos + 1) (l :: rest)
      else if (syncByte :: l :: rest).length < totalLength l then []
      else (pos, (syncByte :: l :: rest).take (totalLength l)) ::
        framesAt (totalLength l - 1) (pos + 1) (l :: rest) := by
  rw [framesAt, if_neg (not_not.mpr rfl)]

/-- A byte that starts no frame: no sync byte, or one with an implausible length behind it. -/
theorem framesAt_of_harmless {b l : Byte} (h : b ≠ syncByte ∨ badLength l = true) (pos : Nat) (rest : List Byte) :
    framesAt 0 pos (b :: l :: rest) = framesAt 0 (pos + 1) (l :: rest) := by
  by_cases hb : b = syncByte
  · rw [hb, framesAt_sync, if_pos (h.resolve_left (not_not.mpr hb))]
  · exact framesAt_of_ne_sync hb pos _

theorem framesAt_append_of_no_sync {noise : List Byte} (h : ∀ b ∈ noise, b ≠ syncByte) (pos : Nat) (ys : List Byte) :
    framesAt 0 pos (noise ++ ys) = framesAt 0 (pos + noise.length) ys := by
  induction noise generalizing pos with
  | nil => rfl
  | cons b bs ih =>
    obtain ⟨hb, hbs⟩ := List.forall_mem_cons.mp h
    rw [List.cons_append, framesAt_of_ne_sync hb, ih hbs, List.length_cons, Nat.add_assoc, Nat.add_comm 1]

theorem eq_cons_cons {s : List Byte} {a b : Byte} (h0 : s[0]? = some a) (h1 : s[1]? = some b) :
    ∃ rest, s = a :: b :: rest := by
  match s with
  | [] => cases h0
  | [_] => cases h1
  | c :: d :: rest =>
    cases h0
    cases h1
    exact ⟨rest, rfl⟩

/-- A candidate frame at the front is found, and the rest is searched behind it. -/
theorem framesAt_append_of_frameOk {f : List Byte} (h : frameOk f = true) (pos : Nat) (ys : List Byte) :
    framesAt 0 pos (f ++ ys) = (pos, f) :: framesAt 0 (pos + f.length) ys := by
  obtain ⟨hmin, hmax, hsync, hlen⟩ := (frameOk_iff f).mp h
  match f with
  | b :: l :: rest =>
    obtain rfl : b = syncByte := hsync
    have htotal : totalLength l = rest.length + 2 := hlen
    have hplausible : badLength l = false := by
      rw [totalLength] at htotal
      rw [badLength_eq_false_iff]
      simp only [List.length_cons] at hmin hmax
      omega
    have hlong : ¬ (syncByte :: l :: (rest ++ ys)).length < rest.length + 2 := by simp
    rw [List.cons_append, List.cons_append, framesAt_sync, if_neg (by simp [hplausible]), htotal, if_neg hlong,
      framesAt_eq_drop]
    simp [Nat.add_assoc, Nat.add_comm 1]

/-- Bytes still held in HOLD give no frame by themselves (40_frame_assembler.md R89). -/
theorem framesAt_of_needMore {s : State} (h : needMore s = true) (pos : Nat) : framesAt 0 pos s.buf = [] := by
  obtain ⟨-, hshort | ⟨h0, l, h1, hlo, hhi, hlen⟩⟩ := (needMore_iff s).mp h
  · match hbuf : s.buf with
    | [] => exact framesAt_nil 0 pos
    | [b] => exact framesAt_singleton pos b
    | _ :: _ :: _ => simp [hbuf] at hshort
  · obtain ⟨rest, hbuf⟩ := eq_cons_cons h0 h1
    rw [hbuf] at hlen ⊢
    rw [framesAt_sync, if_neg (by simp [badLength]; omega), if_pos (c := _ < totalLength l) hlen]

/-! Harmless noise (90_conflicts.md C1). -/

/-- What the first byte of harmless noise has behind it: the noise's next byte, or what follows the noise. -/
theorem harmlessBefore_cons (next b : Byte) (bs : List Byte) :
    harmlessBefore next (b :: bs) = true ↔
      (b ≠ syncByte ∨ badLength (bs.headD next) = true) ∧ harmlessBefore next bs = true := by
  cases bs with
  | nil => simp [harmlessBefore]
  | cons l rest => simp [harmlessBefore]

/-- Noise before a byte `next` is passed over. -/
theorem framesAt_append_of_harmless {next : Byte} {noise : List Byte} (h : harmlessBefore next noise = true)
    (pos : Nat) (ys : List Byte) :
    framesAt 0 pos (noise ++ next :: ys) = framesAt 0 (pos + noise.length) (next :: ys) := by
  induction noise generalizing pos with
  | nil => rfl
  | cons b bs ih =>
    obtain ⟨hb, hbs⟩ := (harmlessBefore_cons next b bs).mp h
    obtain ⟨tail, htail⟩ : ∃ tail, bs ++ next :: ys = bs.headD next :: tail := by
      cases bs with
      | nil => exact ⟨ys, rfl⟩
      | cons l rest => exact ⟨rest ++ next :: ys, rfl⟩
    calc framesAt 0 pos (b :: (bs ++ next :: ys))
        = framesAt 0 (pos + 1) (bs ++ next :: ys) := by rw [htail, framesAt_of_harmless hb]
      _ = framesAt 0 (pos + (b :: bs).length) (next :: ys) := by
        rw [ih hbs, List.length_cons, Nat.add_assoc, Nat.add_comm 1]

/-- Harmless noise holds no frame, even if its last byte is a sync byte. -/
theorem framesAt_of_harmlessBefore {next : Byte} {noise : List Byte} (h : harmlessBefore next noise = true)
    (pos : Nat) : framesAt 0 pos noise = [] := by
  induction noise generalizing pos with
  | nil => exact framesAt_nil 0 pos
  | cons b bs ih =>
    obtain ⟨hb, hbs⟩ := (harmlessBefore_cons next b bs).mp h
    cases bs with
    | nil => exact framesAt_singleton pos b
    | cons l rest => rw [framesAt_of_harmless (by simpa using hb), ih hbs]

/-- Settles O57: the first noise is passed over, the frame behind it is found, and the second noise holds none. -/
theorem harmlessNoiseYieldsTheFrame : Obligations.HarmlessNoiseYieldsTheFrame := by
  intro noise1 f noise2 hok h1 h2
  obtain ⟨rest, hfront⟩ : ∃ rest, f ++ noise2 = 0xC8#8 :: rest := by
    obtain ⟨t, p, c, -, rfl⟩ := exists_parts_of_frameOk hok
    exact ⟨_, rfl⟩
  calc streamFrames (noise1 ++ f ++ noise2)
      = framesAt 0 0 (noise1 ++ 0xC8#8 :: rest) := by rw [streamFrames, List.append_assoc, hfront]
    _ = framesAt 0 noise1.length (f ++ noise2) := by
      rw [framesAt_append_of_harmless h1, Nat.zero_add, hfront]
    _ = [(noise1.length, f)] := by rw [framesAt_append_of_frameOk hok, framesAt_of_harmlessBefore h2]

end Sys2Proof.Machine

/-! ## The stream invariants (10_state.md R33 I5, R35, R36; 40_frame_assembler.md R95) -/

namespace Sys2Proof.Machine

open Safety

theorem forall_mem_take_ne {s : List Byte} {k : Nat} (h : ∀ j < k, s[j]? ≠ some syncByte) :
    ∀ b ∈ s.take k, b ≠ syncByte := by
  rintro b hb rfl
  obtain ⟨j, hj, hget⟩ := List.mem_take_iff_getElem.mp hb
  exact h j (by omega) (List.getElem?_eq_some_iff.mpr ⟨_, hget⟩)

section StreamKept

variable {s t : State} {i : Instr}

/-- A SYNC step settles what the stream algorithm settles: whatever bytes follow, it finds the same frames. -/
theorem SyncMove.framesAt_eq (h : SyncMove s i t) (ys : List Byte) :
    s.frameHist ++ framesAt 0 s.pos (s.buf ++ ys) = t.frameHist ++ framesAt 0 t.pos (t.buf ++ ys) := by
  rw [h.pos_eq, h.buf_eq]
  cases h with
  | clear hg =>
    obtain ⟨-, hnone⟩ := (canClear_iff s).mp hg
    rw [bytesRemoved, List.drop_length, framesAt_append_of_no_sync hnone]
    rfl
  | trim k hg =>
    obtain ⟨-, -, -, hfirst⟩ := (canTrim_iff s k).mp hg
    have hlen : (s.buf.take k).length = k := List.length_take_of_le (trim_lt_of_canTrim hg).le
    rw [← List.take_append_drop k s.buf, List.append_assoc, framesAt_append_of_no_sync (forall_mem_take_ne hfirst),
      hlen, List.take_append_drop]
    rfl
  | drop1 l hg =>
    obtain ⟨h0, h1, hbad⟩ := (canDrop1_iff s l).mp hg
    obtain ⟨rest, hbuf⟩ := eq_cons_cons h0 h1
    rw [hbuf, List.cons_append, List.cons_append, framesAt_of_harmless (.inr ((badLength_iff l).mpr hbad))]
    rfl
  | extract l hg =>
    obtain ⟨-, -, -, -, hlen, -⟩ := (canExtract_iff s l).mp hg
    have hlength : (s.buf.take (totalLength l)).length = totalLength l := List.length_take_of_le hlen
    have hfound := framesAt_append_of_frameOk (frameOk_take_of_canExtract hg) s.pos (s.buf.drop (totalLength l) ++ ys)
    rw [hlength, ← List.append_assoc, List.take_append_drop] at hfound
    rw [hfound, ← List.singleton_append, ← List.append_assoc]
    rfl
  | retNeedMore => rfl

theorem Effect.keeps_settledOk (h : Effect s i t) (hs : settledOk s) : settledOk t := by
  cases h with
  | idle | deliver | take => exact hs
  | feed b =>
    intro ys
    simpa using hs (b :: ys)
  | sync hmove =>
    intro ys
    rw [hmove.inHist_eq, hs ys, hmove.framesAt_eq ys]
  | reset hreset =>
    cases hreset
    exact fun _ => rfl

/-- (I5): a byte fed goes to both ends alike, and a byte removed is counted. -/
theorem Effect.keeps_streamOk (h : Effect s i t) (hs : streamOk s) : streamOk t := by
  obtain ⟨hpos, hbuf⟩ := hs
  cases h with
  | idle | deliver | take => exact ⟨hpos, hbuf⟩
  | feed b =>
    refine ⟨?_, ?_⟩
    · simp; omega
    · simp [List.drop_append_of_le_length hpos, hbuf]
  | sync hmove =>
    have hle := hmove.bytesRemoved_le
    rw [← hbuf, List.length_drop] at hle
    rw [streamOk, hmove.inHist_eq, hmove.pos_eq, hmove.buf_eq, ← List.drop_drop, hbuf]
    exact ⟨by omega, rfl⟩
  | reset hreset =>
    cases hreset
    exact ⟨Nat.le_refl 0, rfl⟩

/-- An extracted frame has its place among the bytes removed so far. -/
def placed (s : State) (x : Nat × List Byte) : Prop :=
  x.1 + x.2.length ≤ s.pos ∧ slice s.inHist x.1 (x.1 + x.2.length) = x.2 ∧ frameOk x.2 = true

theorem framesOk_iff (s : State) :
    framesOk s ↔
      s.pos = s.dropTotal + (s.frameHist.map (fun x => x.2.length)).sum ∧ (∀ x ∈ s.frameHist, placed s x) ∧
        s.frameHist.Pairwise (fun x y => x.1 + x.2.length ≤ y.1) :=
  Iff.rfl

/-- Bytes fed or removed later do not move it. -/
theorem placed_mono {x : Nat × List Byte} (hpos : s.pos ≤ s.inHist.length) (hx : placed s x) {n : Nat}
    (hn : s.pos + n = t.pos) {ys : List Byte} (hys : s.inHist ++ ys = t.inHist) : placed t x := by
  obtain ⟨hend, hslice, hok⟩ := hx
  refine ⟨by omega, ?_, hok⟩
  rw [← hys, slice, List.drop_append_of_le_length (by omega), List.take_append_of_le_length (by simp; omega)]
  exact hslice

theorem Effect.keeps_framesOk (h : Effect s i t) (hstream : streamOk s) (hs : framesOk s) : framesOk t := by
  obtain ⟨hpos, hbuf⟩ := hstream
  obtain ⟨hcount, hplaced, hdisjoint⟩ := (framesOk_iff s).mp hs
  rw [framesOk_iff]
  have hstays {n : Nat} {ys : List Byte} (hn : s.pos + n = t.pos) (hys : s.inHist ++ ys = t.inHist) :
      ∀ x ∈ s.frameHist, placed t x :=
    fun x hx => placed_mono hpos (hplaced x hx) hn hys
  cases h with
  | idle | deliver | take => exact ⟨hcount, hplaced, hdisjoint⟩
  | feed b => exact ⟨hcount, hstays (n := 0) rfl rfl, hdisjoint⟩
  | reset hreset =>
    cases hreset
    exact ⟨rfl, nofun, .nil⟩
  | sync hmove =>
    have hstays := hstays hmove.pos_eq.symm ((List.append_nil _).trans hmove.inHist_eq.symm)
    cases hmove with
    | clear | trim | drop1 =>
      refine ⟨?_, hstays, hdisjoint⟩
      simp; omega
    | retNeedMore => exact ⟨hcount, hstays, hdisjoint⟩
    | extract l hg =>
      obtain ⟨-, -, -, -, hlen, -⟩ := (canExtract_iff s l).mp hg
      have hlength : (s.buf.take (totalLength l)).length = totalLength l := List.length_take_of_le hlen
      refine ⟨?_, List.forall_mem_append.mpr ⟨hstays, List.forall_mem_singleton.mpr ⟨?_, ?_, ?_⟩⟩, ?_⟩
      · simp [hlength]; omega
      · exact Nat.add_le_add_left hlength.le _
      · simp [slice, hlength, hbuf]
      · exact frameOk_take_of_canExtract hg
      · refine List.pairwise_append.mpr ⟨hdisjoint, List.pairwise_singleton _ _, fun x hx y hy => ?_⟩
        obtain rfl := List.mem_singleton.mp hy
        exact (hplaced x hx).1

/-- Each frame enters FRM as it enters the history, and leaves EVT as it enters the sink's. -/
theorem Effect.keeps_eventsOk (h : Effect s i t) (hs : eventsOk s) : eventsOk t := by
  unfold eventsOk at hs ⊢
  cases h with
  | idle | feed => exact hs
  | deliver _ hfrm hevt he => simpa [hfrm, hevt, he] using hs
  | take hevt => simpa [hevt] using hs
  | reset hreset =>
    cases hreset
    rfl
  | sync hmove =>
    cases hmove with
    | clear | trim | drop1 | retNeedMore => exact hs
    | extract l hg =>
      obtain ⟨-, -, -, -, -, hfrm⟩ := (canExtract_iff s l).mp hg
      simp [hfrm] at hs
      simp [hs]

end StreamKept

/-- Settles O54: the three parts together are kept by every effect. -/
theorem stepKeepsTheStream : Obligations.StepKeepsTheStream := by
  intro s t hstream hframes hsettled hstep
  refine step_keeps (P := fun s => streamOk s ∧ framesOk s ∧ settledOk s) (fun _ _ _ _ h => h) (fun s t i hs heff => ?_)
    ⟨hstream, hframes, hsettled⟩ hstep
  obtain ⟨hstream, hframes, hsettled⟩ := hs
  exact ⟨heff.keeps_streamOk hstream, heff.keeps_framesOk hstream hframes, heff.keeps_settledOk hsettled⟩

/-- Settles O55: every effect keeps the order. -/
theorem stepKeepsEventsInOrder : Obligations.StepKeepsEventsInOrder := fun _ _ hs hstep =>
  step_keeps (P := eventsOk) (fun _ _ _ _ h => h) (fun _ _ _ hs heff => heff.keeps_eventsOk hs) hs hstep

/-- Settles O52: nothing has been fed, removed, extracted or taken. -/
theorem resetKeepsEveryInvariant : Obligations.ResetKeepsEveryInvariant :=
  ⟨rfl, ⟨Nat.le_refl 0, rfl⟩, ⟨rfl, nofun, .nil⟩, fun _ => rfl, rfl⟩

/-! The same bytes (R95). -/

theorem frameHist_eq_of_hold {s : State} (hsettled : settledOk s)
    (hhold : syncChoice s = .hold) : s.frameHist = streamFrames s.inHist := by
  have hall := hsettled []
  rwa [List.append_nil, List.append_nil, framesAt_of_needMore ((syncChoice_eq_hold_iff s).mp hhold), List.append_nil,
    eq_comm] at hall

/-- The configuration matters to `decode` through the Flight Mode settings alone. -/
theorem decodeEvent_congr {cfg cfg' : Config} (htrim : cfg.fmFixedTrim = cfg'.fmFixedTrim)
    (hcut : cfg.fmNulCut = cfg'.fmNulCut) (hstrip : cfg.fmCtrlStrip = cfg'.fmCtrlStrip) (f : List Byte) :
    decodeEvent cfg f = decodeEvent cfg' f := by
  simp only [decodeEvent, decodeFlightMode, flightModeText, htrim, hcut, hstrip]

/-- With nothing on the way, the events taken are the decodes of the frames extracted. -/
theorem outHist_of_drained {s : State} (hevents : eventsOk s) (hfrm : s.frm = none) (hevt : s.evt = none) :
    s.outHist.map some = s.frameHist.map (fun x => decodeEvent s.cfg x.2) := by
  simpa [eventsOk, hfrm, hevt] using hevents.symm

/-- Settles O56: in HOLD the frames extracted are those of the stream, and the events are their decodes. -/
theorem sameBytesSameFrames : Obligations.SameBytesSameFrames := by
  refine ⟨fun s _ => frameHist_eq_of_hold, ?_⟩
  intro s t _ hsettled hevents _ hsettled' hevents' hhold hhold' hbytes htrim hcut hstrip hfrm hfrm' hevt
    hevt'
  have hframes : s.frameHist = t.frameHist := by
    rw [frameHist_eq_of_hold hsettled hhold, hbytes, ← frameHist_eq_of_hold hsettled' hhold']
  refine ⟨hframes, List.map_injective_iff.mpr (Option.some_injective Event) ?_⟩
  rw [outHist_of_drained hevents hfrm hevt, outHist_of_drained hevents' hfrm' hevt', hframes]
  simp only [decodeEvent_congr htrim hcut hstrip]

end Sys2Proof.Machine

/-! ## Selections and waiting (30_encoding.md R68; 40_frame_assembler.md R92, R96; 70_reset_and_hazards.md R177) -/

namespace Sys2Proof.Machine

open Safety

/-- The selection looks at PH, BUF and frm_valid alone. -/
theorem decodeSync_eq_syncChoice (ph : Phase) (buf : List Byte) :
    decodeSync ph buf false = syncChoice { State.reset with ph := ph, buf := buf } :=
  rfl

/-- Settles O3: the words of each row, at the front of BUF, make the guard of that row true. -/
theorem syncRowsDecodeTheirEncoding : Obligations.SyncRowsDecodeTheirEncoding := by
  intro i w rest ph hrow hwf hw hclear hextract
  rw [decodeSync_eq_syncChoice]
  cases i with
  | clear =>
    cases hw
    refine syncChoice_of_canClear ((canClear_iff _).mpr ⟨.inr (Nat.le_add_left 2 _), ?_⟩)
    exact List.forall_mem_cons.mpr ⟨by decide, List.forall_mem_cons.mpr ⟨by decide, hclear rfl⟩⟩
  | trim k =>
    cases hw
    have hk : 0 < k := of_decide_eq_true hwf
    refine syncChoice_of_canTrim ((canTrim_iff _ k).mpr ⟨.inr ?_, hk, ?_, fun j hj => ?_⟩)
    · simp; omega
    · simp
    · simp [List.getElem?_append_left, List.length_replicate, hj]
  | drop1 l =>
    cases hw
    exact syncChoice_of_canDrop1 ((canDrop1_iff _ l).mpr ⟨rfl, rfl, (badLength_iff l).mp hwf⟩)
  | extract l =>
    cases hw
    obtain ⟨hlo, hhi⟩ : 2 ≤ l.toNat ∧ l.toNat ≤ 62 := by
      rw [← badLength_eq_false_iff]
      simpa [Instr.wf] using hwf
    exact syncChoice_of_canExtract ((canExtract_iff _ l).mpr ⟨rfl, rfl, hlo, hhi, hextract l rfl, rfl⟩)
  | retNeedMore => cases hw
  | gps | battery | linkStatistics | attitude | flightMode | unknown | checksumMismatch | malformedPayload | feed
  | decode | take | reset => cases hrow

/-- A waiting BUF lacks a byte of the longest frame. -/
theorem buf_length_le_of_needMore {s : State} (h : needMore s = true) : s.buf.length ≤ 63 := by
  obtain ⟨-, hshort | ⟨-, l, -, -, hhi, hlen⟩⟩ := (needMore_iff s).mp h
  · omega
  · omega

/-- Settles O28: a full BUF holds more than a waiting one can, and what stalls SYNC is a frame on its way out. -/
theorem fullBufferNeverHolds : Obligations.FullBufferNeverHolds := by
  intro s cap _ hfull
  cases hchoice : syncChoice s with
  | step i => exact .inl ⟨i, rfl⟩
  | hold =>
    have hlen := buf_length_le_of_needMore ((syncChoice_eq_hold_iff s).mp hchoice)
    have hcap := cap.property
    omega
  | stall =>
    obtain ⟨hfrm, -⟩ := (syncChoice_eq_stall_iff s).mp hchoice
    have hvalid : frmValid s = true := by simpa [frmValid, Option.isSome_iff_ne_none] using hfrm
    refine .inr ⟨rfl, ?_⟩
    cases hevt : evtValid s with
    | false => exact .inl (by simp [canDecode, hvalid, hevt])
    | true => exact .inr rfl

/-- Settles O60: quiescence is HOLD with nothing on offer and both registers free. -/
theorem quiescentWaitsForInput : Obligations.QuiescentWaitsForInput := by
  intro s hq
  obtain ⟨hneed, hfrm, hevt, hinp⟩ :
      needMore s = true ∧ frmValid s = false ∧ evtValid s = false ∧ s.inp.isEmpty = true := by
    simp only [quiescent, Bool.and_eq_true, Bool.not_eq_true'] at hq
    obtain ⟨⟨⟨⟨-, hneed⟩, hfrm⟩, hevt⟩, hinp⟩ := hq
    exact ⟨hneed, hfrm, hevt, hinp⟩
  refine ⟨?src, ?sync, ?dec, hevt, buf_length_le_of_needMore hneed⟩
  case src => simp [enabled, hinp]
  case sync => simp [enabled, syncChoice_of_needMore hneed]
  case dec => simp [enabled, canDecode, hfrm]

theorem nextFrame_of_short {b : List Byte} (h : b.length < 2) : nextFrame b = (.needMore, b) := if_pos h

/-- Settles O29: the phase and the byte decide between the guards. -/
theorem oneByteBufferThreeWays : Obligations.OneByteBufferThreeWays := by
  refine ⟨fun s x hbuf => ⟨fun hph => ?entry, fun hph hx => ?noise, fun hph hx => ?sync⟩, by decide, by decide⟩
  case entry =>
    rw [hbuf]
    exact ⟨syncChoice_eq_hold_of_short hph (by rw [hbuf]; exact Nat.one_lt_two),
      nextFrame_of_short Nat.one_lt_two⟩
  case noise =>
    have hnone : ∀ b ∈ s.buf, b ≠ 0xC8#8 := by simpa [hbuf] using hx
    exact ⟨syncChoice_of_canClear ((canClear_iff s).mpr ⟨.inl hph, hnone⟩), _,
      clearDiscardsTheBuffer s (.inl hph) hnone, rfl⟩
  case sync =>
    subst hx
    have h0 : s.buf[0]? = some 0xC8#8 := by rw [hbuf]; rfl
    have hlen : s.buf.length < 2 := by rw [hbuf]; decide
    exact ⟨syncChoice_of_canRetNeedMore ((canRetNeedMore_iff s).mpr ⟨hph, h0, .inl hlen⟩), _,
      retNeedMoreChangesThePhase s hph h0 (.inl hlen), hbuf⟩

end Sys2Proof.Machine

/-! ## Runs of SYNC steps (40_frame_assembler.md R94) -/

namespace Sys2Proof.Machine

open Safety

section Progress

variable {s t : State} {i : Instr}

/-- A step removes bytes, or it leaves SYNC waiting: CLEAR leaves BUF empty, and RET_NEED_MORE leaves a BUF that lacks
bytes. -/
theorem SyncMove.shorter_or_waits (h : SyncMove s i t) :
    t.buf.length < s.buf.length ∨ needMore t = true := by
  have hlen := h.buf_length_eq
  cases h with
  | clear => exact .inr (needMore_of_short rfl (by simp))
  | trim k hg =>
    obtain ⟨-, hk, -⟩ := (canTrim_iff s k).mp hg
    have hlt := trim_lt_of_canTrim hg
    exact .inl (by simp; omega)
  | drop1 l hg =>
    obtain ⟨h0, -⟩ := (canDrop1_iff s l).mp hg
    have hlt := (List.getElem?_eq_some_iff.mp h0).1
    exact .inl (by simp; omega)
  | extract l hg =>
    obtain ⟨h0, -⟩ := (canExtract_iff s l).mp hg
    have hlt := (List.getElem?_eq_some_iff.mp h0).1
    exact .inl (by simp [totalLength]; omega)
  | retNeedMore hg =>
    obtain ⟨-, h0, hlacks⟩ := (canRetNeedMore_iff s).mp hg
    exact .inr ((needMore_iff _).mpr ⟨rfl, hlacks.imp id fun hl => ⟨h0, hl⟩⟩)

theorem SyncMove.progress (h : SyncMove s i t) :
    (t.ph = .entry ∧ t.buf.length ≤ s.buf.length) ∨
      (t.ph = .scan ∧ t.buf.length < s.buf.length ∧ 1 ≤ t.buf.length) := by
  have hlen := h.buf_length_eq
  cases hph : t.ph with
  | entry => exact .inl ⟨rfl, by omega⟩
  | scan =>
    refine .inr ⟨rfl, h.shorter_or_waits.resolve_right fun hneed => ?_, h.one_le_of_scan hph⟩
    simp [((needMore_iff t).mp hneed).1] at hph

theorem syncWaits_of_needMore (h : needMore s = true) : syncWaits s = true := by
  simp [syncWaits, enabled, syncChoice_of_needMore h]

/-- SYNC waits, or it has a step. -/
theorem syncWaits_or_step (s : State) : syncWaits s = true ∨ ∃ i, syncChoice s = .step i := by
  cases h : syncChoice s with
  | step i => exact .inr ⟨i, rfl⟩
  | hold | stall => exact .inl (by simp [syncWaits, enabled, h])

theorem syncRun_of_waits (h : syncWaits s = true) (n : Nat) : syncRun n s = s := by
  cases n with
  | zero => rfl
  | succ n =>
    cases hchoice : syncChoice s with
    | step i => simp [syncWaits, enabled, hchoice] at h
    | hold | stall => simp [syncRun, hchoice]

/-- SYNC waits, or a run goes on from a state with fewer bytes or one that waits. -/
theorem syncWaits_or_syncRun_succ (s : State) :
    syncWaits s = true ∨
      ∃ t, (∀ n, syncRun (n + 1) s = syncRun n t) ∧ (t.buf.length < s.buf.length ∨ syncWaits t = true) := by
  refine (syncWaits_or_step s).imp id fun ⟨i, hchoice⟩ => ?_
  obtain ⟨t, hexec, hmove⟩ := exec_of_syncChoice hchoice
  exact ⟨t, fun n => by simp [syncRun, hchoice, hexec], hmove.shorter_or_waits.imp id syncWaits_of_needMore⟩

end Progress

/-- The number of steps is bounded by the bytes, which every step but the last removes. -/
theorem syncWaits_syncRun (n : Nat) (s : State) (h : s.buf.length ≤ n) : syncWaits (syncRun (n + 1) s) = true := by
  induction n generalizing s with
  | zero =>
    obtain hwaits | ⟨t, hrun, hnext⟩ := syncWaits_or_syncRun_succ s
    · rwa [syncRun_of_waits hwaits]
    · rw [hrun]
      exact hnext.resolve_left (by omega)
  | succ n ih =>
    obtain hwaits | ⟨t, hrun, hshorter | hwaits⟩ := syncWaits_or_syncRun_succ s
    · rwa [syncRun_of_waits hwaits]
    · rw [hrun]
      exact ih t (by omega)
    · rwa [hrun, syncRun_of_waits hwaits]

/-- Settles O27: each step makes progress, and the number of bytes bounds a run. -/
theorem syncMakesProgress : Obligations.SyncMakesProgress :=
  ⟨fun _ _ _ hchoice hexec => (syncMove_of_exec hchoice hexec).progress, fun s =>
    syncWaits_syncRun s.buf.length s (Nat.le_refl _)⟩

end Sys2Proof.Machine

/-! ## One call of next_frame (40_frame_assembler.md R82, R83, R91) -/

namespace Sys2Proof.Machine

open Safety

/-- Bytes that begin a frame and lack the rest of it. -/
def Lacks (b : List Byte) : Prop :=
  b[0]? = some 0xC8#8 ∧
    (b.length < 2 ∨ ∃ l : Byte, b[1]? = some l ∧ 2 ≤ l.toNat ∧ l.toNat ≤ 62 ∧ b.length < l.toNat + 2)

/-- What `scan(B)` of R82 answers, by the reason for it; each recursive call of the source is one constructor. -/
inductive Scan : List Byte → FrameResult × List Byte → Prop
  | nothing {b : List Byte} (h : ∀ x ∈ b, x ≠ 0xC8#8) : Scan b (.nothing, [])
  | needMore {b : List Byte} (h : Lacks b) : Scan b (.needMore, b)
  | frame {f : List Byte} (rest : List Byte) (h : frameOk f = true) : Scan (f ++ rest) (.frame f, rest)
  | trim {b : List Byte} {r : FrameResult × List Byte} {k : Nat} (hk : 0 < k) (hfind : findSync b = some k)
    (h : Scan (b.drop k) r) : Scan b r
  | drop1 {l : Byte} {rest : List Byte} {r : FrameResult × List Byte} (hbad : badLength l = true)
    (h : Scan (l :: rest) r) : Scan (0xC8#8 :: l :: rest) r

theorem findSync_drop {b : List Byte} {k : Nat} (h : findSync b = some k) : findSync (b.drop k) = some 0 := by
  obtain ⟨hsync, -⟩ := (findSync_eq_some_iff b k).mp h
  rw [findSync_eq_some_iff, List.getElem?_drop]
  exact ⟨hsync, nofun⟩

/-- The noise before the sync byte does not matter to the scan. -/
theorem scanFrame_drop {b : List Byte} {k : Nat} (h : findSync b = some k) (n : Nat) :
    scanFrame (n + 1) b = scanFrame (n + 1) (b.drop k) := by
  rw [scanFrame, scanFrame, h, findSync_drop h]
  rfl

/-- The bounds on the total length in R82 are those on the length byte. -/
theorem totalLength_out_of_range_iff (l : Byte) :
    totalLength l < 4 ∨ 64 < totalLength l ↔ badLength l = true := by
  rw [badLength_iff, totalLength]
  omega

section ScanFront

variable (n : Nat)

theorem scanFrame_of_no_sync {b : List Byte} (h : ∀ x ∈ b, x ≠ 0xC8#8) : scanFrame (n + 1) b = (.nothing, []) := by
  rw [scanFrame, (findSync_eq_none_iff b).mpr h]

theorem scanFrame_of_lacks {b : List Byte} (h : Lacks b) : scanFrame (n + 1) b = (.needMore, b) := by
  obtain ⟨h0, hshort | ⟨l, h1, hlo, hhi, hlen⟩⟩ := h
  · have hfind : findSync b = some 0 := (findSync_eq_some_iff b 0).mpr ⟨h0, nofun⟩
    simp [scanFrame, hfind, hshort]
  · obtain ⟨rest, rfl⟩ := eq_cons_cons h0 h1
    have hgood : ¬ (totalLength l < 4 ∨ 64 < totalLength l) := by rw [totalLength]; omega
    have hlen : rest.length + 1 + 1 < totalLength l := hlen
    simp [scanFrame, findSync, hgood, hlen]

theorem scanFrame_of_bad {l : Byte} (h : badLength l = true) (rest : List Byte) :
    scanFrame (n + 1) (0xC8#8 :: l :: rest) = scanFrame n (l :: rest) := by
  have hbad := (totalLength_out_of_range_iff l).mpr h
  simp [scanFrame, findSync, hbad]

theorem scanFrame_of_complete {l : Byte} {rest : List Byte} (h : badLength l = false)
    (hlen : totalLength l ≤ rest.length + 2) :
    scanFrame (n + 1) (0xC8#8 :: l :: rest) =
      (.frame ((0xC8#8 :: l :: rest).take (totalLength l)), (0xC8#8 :: l :: rest).drop (totalLength l)) := by
  have hgood := mt (totalLength_out_of_range_iff l).mp (by simp [h])
  have hlong : ¬ rest.length + 1 + 1 < totalLength l := by omega
  simp [scanFrame, findSync, hgood, hlong]

end ScanFront

/-- The front of BUF that EXTRACT would take is a candidate frame. -/
theorem frameOk_take {l : Byte} {rest : List Byte} (h : badLength l = false) (hlen : totalLength l ≤ rest.length + 2) :
    frameOk ((0xC8#8 :: l :: rest).take (totalLength l)) = true := by
  obtain ⟨hlo, hhi⟩ := (badLength_eq_false_iff l).mp h
  exact frameOk_take_of_canExtract (s := { State.reset with buf := 0xC8#8 :: l :: rest })
    ((canExtract_iff _ l).mpr ⟨rfl, rfl, hlo, hhi, hlen, rfl⟩)

/-- A sync byte at the front, from the scan of the bytes behind it, which matters if its length is implausible. -/
theorem scan_scanFrame_front {n : Nat} {l : Byte} {rest : List Byte}
    (hbehind : Scan (l :: rest) (scanFrame n (l :: rest))) :
    Scan (0xC8#8 :: l :: rest) (scanFrame (n + 1) (0xC8#8 :: l :: rest)) := by
  cases hbad : badLength l with
  | true =>
    rw [scanFrame_of_bad n hbad]
    exact .drop1 hbad hbehind
  | false =>
    by_cases hlen : totalLength l ≤ rest.length + 2
    · have hframe := Scan.frame ((0xC8#8 :: l :: rest).drop (totalLength l)) (frameOk_take hbad hlen)
      rw [List.take_append_drop] at hframe
      rwa [scanFrame_of_complete n hbad hlen]
    · obtain ⟨hlo, hhi⟩ := (badLength_eq_false_iff l).mp hbad
      have hlacks : Lacks (0xC8#8 :: l :: rest) := ⟨rfl, .inr ⟨l, rfl, hlo, hhi, Nat.not_le.mp hlen⟩⟩
      rw [scanFrame_of_lacks n hlacks]
      exact .needMore hlacks

/-- `scanFrame` with fuel for every byte is the scan of R82. -/
theorem scan_scanFrame (n : Nat) (b : List Byte) (hn : b.length < n) : Scan b (scanFrame n b) := by
  induction n generalizing b with
  | zero => exact absurd hn (Nat.not_lt_zero _)
  | succ n ih =>
    cases hfind : findSync b with
    | none =>
      have hnone := (findSync_eq_none_iff b).mp hfind
      rw [scanFrame_of_no_sync n hnone]
      exact .nothing hnone
    | some k =>
      have hdrop : Scan (b.drop k) (scanFrame (n + 1) (b.drop k)) := by
        have h0 : (b.drop k)[0]? = some 0xC8#8 := ((findSync_eq_some_iff _ 0).mp (findSync_drop hfind)).1
        have hlen : (b.drop k).length ≤ n := by simp; omega
        match b.drop k, h0, hlen with
        | [x], h0, _ =>
          have hlacks : Lacks [x] := ⟨h0, .inl Nat.one_lt_two⟩
          rw [scanFrame_of_lacks n hlacks]
          exact .needMore hlacks
        | x :: l :: rest, h0, hlen =>
          cases h0
          exact scan_scanFrame_front (ih (l :: rest) hlen)
      rw [← scanFrame_drop hfind] at hdrop
      cases k with
      | zero => exact hdrop
      | succ k => exact .trim (Nat.succ_pos k) hfind hdrop

/-- A call that begins is a scan. -/
theorem scan_nextFrame {b : List Byte} (h : 2 ≤ b.length) : Scan b (nextFrame b) := by
  rw [nextFrame, if_neg (Nat.not_lt.mpr h)]
  exact scan_scanFrame _ b (Nat.lt_succ_self _)

theorem nextFrame_of_lacks {b : List Byte} (h : Lacks b) : nextFrame b = (.needMore, b) := by
  rw [nextFrame, scanFrame_of_lacks _ h, ite_self]

/-- What each result of a scan leaves of the buffer (R83). -/
def Leaves (b : List Byte) : FrameResult × List Byte → Prop
  | (.frame f, rest) => frameOk f = true ∧ ∃ noise, b = noise ++ f ++ rest
  | (.nothing, rest) => rest = []
  | (.needMore, rest) => Lacks rest ∧ ∃ noise, b = noise ++ rest

/-- Bytes discarded first are noise too. -/
theorem Leaves.append {b : List Byte} {r : FrameResult × List Byte} (h : Leaves b r) (noise : List Byte) :
    Leaves (noise ++ b) r := by
  match r, h with
  | (.frame f, rest), ⟨hok, more, hb⟩ => exact ⟨hok, noise ++ more, by simp [hb]⟩
  | (.nothing, rest), h => exact h
  | (.needMore, rest), ⟨hlacks, more, hb⟩ => exact ⟨hlacks, noise ++ more, by simp [hb]⟩

theorem Scan.leaves {b : List Byte} {r : FrameResult × List Byte} (h : Scan b r) : Leaves b r := by
  induction h with
  | nothing => rfl
  | needMore h => exact ⟨h, [], rfl⟩
  | frame rest h => exact ⟨h, [], rfl⟩
  | @trim b r k _ _ _ ih =>
    rw [← List.take_append_drop k b]
    exact ih.append _
  | drop1 _ _ ih => exact ih.append [0xC8#8]

/-- Settles O26: with fewer than two bytes no call begins; a scan leaves what `Leaves` says. -/
theorem nextFrameResults : Obligations.NextFrameResults := by
  intro b
  by_cases hshort : b.length < 2
  · rw [nextFrame_of_short hshort]
    exact ⟨.inl ⟨rfl, hshort⟩, nextFrame_of_short hshort⟩
  · have hleaves := (scan_nextFrame (Nat.not_lt.mp hshort)).leaves
    match nextFrame b, hleaves with
    | (.frame f, rest), hleaves => exact hleaves
    | (.nothing, rest), hleaves =>
      subst hleaves
      exact ⟨rfl, rfl⟩
    | (.needMore, rest), ⟨hlacks, hnoise⟩ => exact ⟨.inr ⟨hlacks.1, hnoise⟩, nextFrame_of_lacks hlacks⟩

/-- From `s` the call has ended in `t` with the result `r` (R91). -/
def CallEnds (r : FrameResult × List Byte) (s t : State) : Prop :=
  t.ph = .entry ∧ t.buf = r.2 ∧
    match r.1 with
    | .frame f => t.frm = some f ∧ t.statusHist = s.statusHist ++ [.frame]
    | .nothing => t.frm = none ∧ t.statusHist = s.statusHist ++ [.nothing]
    | .needMore => t.frm = none ∧ (t = s ∨ t.statusHist = s.statusHist ++ [.needMore])

theorem syncCall_of_hold {s : State} (h : syncChoice s = .hold) (n : Nat) : syncCall n s = s := by
  cases n with
  | zero => rfl
  | succ n => simp [syncCall, h]

/-- A step that ends the call is its last. -/
theorem syncCall_of_entry {s t : State} {i : Instr} (hchoice : syncChoice s = .step i) (hexec : exec i s = .next t)
    (hph : t.ph = .entry) (n : Nat) : syncCall (n + 1) s = t := by
  simp [syncCall, hchoice, hexec, hph]

/-- A step that only discards is a part of the call. -/
theorem callEnds_of_discard {s t : State} {i : Instr} {r : FrameResult × List Byte} {n : Nat}
    (hchoice : syncChoice s = .step i) (hexec : exec i s = .next t) (hph : t.ph = .scan)
    (hhist : t.statusHist = s.statusHist) (h : CallEnds r t (syncCall n t)) :
    CallEnds r s (syncCall (n + 1) s) := by
  have hcall : syncCall (n + 1) s = syncCall n t := by simp [syncCall, hchoice, hexec, hph]
  obtain ⟨hentry, hbuf, hresult⟩ := hcall ▸ h
  have hne : syncCall (n + 1) s ≠ t := by
    intro heq
    simp [heq, hph] at hentry
  refine ⟨hentry, hbuf, ?_⟩
  match r, hresult with
  | (.frame f, _), hresult => exact ⟨hresult.1, hhist ▸ hresult.2⟩
  | (.nothing, _), hresult => exact ⟨hresult.1, hhist ▸ hresult.2⟩
  | (.needMore, _), hresult => exact ⟨hresult.1, .inr (hhist ▸ hresult.2.resolve_left hne)⟩

/-- A call in progress, or one that step 1 lets begin, ends as the scan of its buffer does, within one step for each
byte. -/
theorem callEnds_syncCall {b : List Byte} {r : FrameResult × List Byte} (h : Scan b r) (n : Nat) (s : State)
    (hbuf : s.buf = b) (hmay : s.ph = .scan ∨ 2 ≤ s.buf.length) (hfrm : s.frm = none) (hn : b.length ≤ n + 1) :
    CallEnds r s (syncCall (n + 1) s) := by
  induction h generalizing n s with
  | nothing h =>
    subst hbuf
    have hchoice := syncChoice_of_canClear ((canClear_iff s).mpr ⟨hmay, h⟩)
    rw [syncCall_of_entry hchoice (clearDiscardsTheBuffer s hmay h) rfl]
    exact ⟨rfl, rfl, hfrm, rfl⟩
  | needMore h =>
    subst hbuf
    obtain ⟨h0, hlacks⟩ := h
    cases hph : s.ph with
    | scan =>
      have hchoice := syncChoice_of_canRetNeedMore ((canRetNeedMore_iff s).mpr ⟨hph, h0, hlacks⟩)
      rw [syncCall_of_entry hchoice (retNeedMoreChangesThePhase s hph h0 hlacks) rfl]
      exact ⟨rfl, rfl, hfrm, .inr rfl⟩
    | entry =>
      have hneed := (needMore_iff s).mpr ⟨hph, hlacks.imp id fun hl => ⟨h0, hl⟩⟩
      rw [syncCall_of_hold (syncChoice_of_needMore hneed)]
      exact ⟨hph, rfl, hfrm, .inl rfl⟩
  | @frame f rest h =>
    obtain ⟨hmin, hmax, hsync, hlen⟩ := (frameOk_iff f).mp h
    have hbyte {o : Nat} (ho : o < 4) : s.buf[o]? = some (byteAt f o) := by
      rw [hbuf, List.getElem?_append_left (by omega), getElem?_eq_some_byteAt (by omega)]
    have h0 : s.buf[0]? = some 0xC8#8 := (hbyte (by decide)).trans (congrArg some hsync)
    have h1 := hbyte (o := 1) (by decide)
    have hlen : (byteAt f 1).toNat + 2 = f.length := hlen
    have hlong : (byteAt f 1).toNat + 2 ≤ s.buf.length := by simp [hbuf, hlen]
    have hchoice := syncChoice_of_canExtract
      ((canExtract_iff s _).mpr ⟨h0, h1, by omega, by omega, hlong, hfrm⟩)
    rw [syncCall_of_entry hchoice (extractCopiesTheFrame _ s h0 h1 (by omega) (by omega) hlong hfrm) rfl]
    refine ⟨rfl, ?_, ?_, rfl⟩
    · simp [hbuf, hlen]
    · simp [hbuf, hlen]
  | @trim b r k hk hfind h ih =>
    subst hbuf
    obtain ⟨hsync, hfirst⟩ := (findSync_eq_some_iff s.buf k).mp hfind
    have hlt := findSync_lt hfind
    have hchoice := syncChoice_of_canTrim ((canTrim_iff s k).mpr ⟨hmay, hk, hsync, hfirst⟩)
    obtain ⟨m, rfl⟩ : ∃ m, n = m + 1 := Nat.exists_eq_succ_of_ne_zero (by omega)
    refine callEnds_of_discard hchoice (trimDropsTheNoise k s hmay hk hsync hfirst) rfl rfl ?_
    exact ih m _ rfl (.inl rfl) hfrm (by simp; omega)
  | @drop1 l rest r hbad h ih =>
    have h0 : s.buf[0]? = some 0xC8#8 := by rw [hbuf]; rfl
    have h1 : s.buf[1]? = some l := by rw [hbuf]; rfl
    have hrange := (badLength_iff l).mp hbad
    have hchoice := syncChoice_of_canDrop1 ((canDrop1_iff s l).mpr ⟨h0, h1, hrange⟩)
    simp only [List.length_cons] at hn
    obtain ⟨m, rfl⟩ : ∃ m, n = m + 1 := Nat.exists_eq_succ_of_ne_zero (by omega)
    refine callEnds_of_discard hchoice (drop1DropsTheBogusSync l s h0 h1 hrange) rfl rfl ?_
    exact ih m _ (by rw [hbuf, List.drop_one, List.tail_cons]) (.inl rfl) hfrm (by simp; omega)

/-- Settles O25: with fewer than two bytes no call begins; otherwise the call is the scan. -/
theorem callIsNextFrame : Obligations.CallIsNextFrame := by
  intro s hph hfrm
  by_cases hshort : s.buf.length < 2
  · rw [nextFrame_of_short hshort, syncCall_of_hold (syncChoice_eq_hold_of_short hph hshort)]
    exact ⟨hph, rfl, hfrm, .inl rfl⟩
  · have hlong := Nat.not_lt.mp hshort
    obtain ⟨n, hn⟩ : ∃ n, s.buf.length = n + 1 := Nat.exists_eq_succ_of_ne_zero (by omega)
    rw [hn]
    exact callEnds_syncCall (scan_nextFrame hlong) n s rfl (.inr hlong) hfrm hn.le

end Sys2Proof.Machine

/-! ## The turns of a step (00_scope.md R12; log 1) and refusals (42_dispatch.md R111, R117; log 12) -/

namespace Sys2Proof.Machine

open Safety

section Scheduled

variable {s : State} {a : Agent} {rest : List Agent} (hsched : s.sched = a :: rest)
include hsched

theorem nextAgent_of_sched : nextAgent s = a := by
  simp [nextAgent, hsched]

theorem advance_of_sched : advance s = { s with sched := rest } := by
  simp [advance, hsched]

theorem step_of_sched {i : Instr} {u : State} (h : fetch a { s with sched := rest } = .run i u) :
    step s = exec i u := by
  apply step_of_run
  rwa [nextAgent_of_sched hsched, advance_of_sched hsched]

end Scheduled

theorem advance_of_no_sched {s : State} (h : s.sched = []) : advance s = { s with tick := s.tick + 1 } := by
  simp [advance, h]

/-- A guard does not look at the schedule. -/
theorem enabled_of_sched (a : Agent) (s : State) (sched : List Agent) :
    enabled a { s with sched := sched } = enabled a s := by
  cases a with
  | src | sync | dec | sink | host => rfl

theorem enabled_sync_iff (s : State) : enabled .sync s = true ↔ ∃ i, syncChoice s = .step i := by
  cases h : syncChoice s with
  | step | hold | stall => simp [enabled, h]

theorem enabled_dec_iff (s : State) : enabled .dec s = true ↔ (∃ f, s.frm = some f) ∧ s.evt = none := by
  simp [enabled, canDecode, frmValid, evtValid, Option.isSome_iff_exists]

/-- With no schedule, the free choice is taken when it has a step, and otherwise one of the block's own agents moves. -/
theorem nextAgent_cases {s : State} (h : s.sched = []) :
    (nextAgent s ≠ .host ∧ enabled (nextAgent s) s = true) ∨
      (nextAgent s = .sync ∧ enabled .sync s = true) ∨ (nextAgent s = .dec ∧ enabled .sync s = false) := by
  simp only [nextAgent, h]
  split_ifs with hfree hsync
  · exact .inl hfree
  · exact .inr (.inl ⟨rfl, hsync⟩)
  · exact .inr (.inr ⟨rfl, Bool.eq_false_of_not_eq_true hsync⟩)

theorem nextAgent_ne_host {s : State} (h : s.sched = []) : nextAgent s ≠ .host := by
  obtain ⟨hne, -⟩ | ⟨heq, -⟩ | ⟨heq, -⟩ := nextAgent_cases h
  · exact hne
  · exact heq ▸ nofun
  · exact heq ▸ nofun

theorem enabled_nextAgent {s : State} (h : s.sched = []) (hblock : enabled .sync s = true ∨ enabled .dec s = true) :
    enabled (nextAgent s) s = true := by
  obtain ⟨-, hen⟩ | ⟨heq, hen⟩ | ⟨heq, hno⟩ := nextAgent_cases h
  · exact hen
  · rwa [heq]
  · rw [heq]
    exact hblock.resolve_left (by simp [hno])

/-- Settles O51: a scheduled turn fetches the agent's instruction; without a schedule the step is that of the chosen
agent scheduled. -/
theorem stepRunsTheDecodedInstruction : Obligations.StepRunsTheDecodedInstruction := by
  intro s rest
  refine ⟨?src, ?sync, ?dec, ?sink, ?host, ?disabled, ?free⟩
  case src => exact fun hsched b bs hinp hready => step_of_sched hsched (fetch_src hinp hready)
  case sync => exact fun hsched i hi => step_of_sched hsched (fetch_sync hi)
  case dec => exact fun hsched f i hfrm hevt hi => step_of_sched hsched (fetch_dec hfrm hevt hi)
  case sink => exact fun hsched hevt => step_of_sched hsched (fetch_sink hevt)
  case host => exact fun hsched => step_of_sched hsched rfl
  case disabled =>
    intro a hsched hdis
    have hfetch := fetch_of_not_enabled ((enabled_of_sched a s rest).trans hdis)
    rw [step_of_nothing, advance_of_sched hsched]
    · rfl
    · rwa [nextAgent_of_sched hsched, advance_of_sched hsched]
  case free =>
    intro hsched
    refine ⟨?_, nextAgent_ne_host hsched, enabled_nextAgent hsched⟩
    have hadv : advance { s with sched := [nextAgent s], tick := s.tick + 1 } = advance s := by
      rw [advance_of_no_sched hsched, advance_of_sched rfl, ← hsched]
    rw [step, step, hadv, nextAgent_of_sched (s := { s with sched := [nextAgent s], tick := s.tick + 1 }) rfl]

/-! What a refusal says. -/

theorem execDecode_refused {s : State} {r : Refusal} (h : execDecode s = .refused r) :
    r = .brokenFrame ∧ ∃ f, s.frm = some f ∧ frameOk f = false := by
  unfold execDecode at h
  split at h
  · next f hfrm hevt =>
    split at h
    · cases h
    · next hnone =>
      cases h
      exact ⟨rfl, f, hfrm, (decodeEvent_eq_none_iff s.cfg f).mp hnone⟩
  · cases h
  · cases h

/-- An instruction is refused on a broken frame alone. -/
theorem exec_refused {i : Instr} {s : State} {r : Refusal} (h : exec i s = .refused r) :
    r = .brokenFrame ∧ ∃ f, s.frm = some f ∧ frameOk f = false := by
  cases hrow : i.isFrameRow with
  | true =>
    obtain ⟨e, he⟩ := exists_rowEvent hrow s.cfg
    rw [exec_eq_retire he] at h
    obtain ⟨rfl, f, q, hfrm, hq⟩ := retire_refused h
    exact ⟨rfl, f, hfrm, (decodeFrame_reject_iff f).mp ⟨q, hq⟩⟩
  | false =>
    cases i with
    | gps | battery | linkStatistics | attitude | flightMode | unknown | checksumMismatch | malformedPayload =>
      cases hrow
    | clear | trim | drop1 | extract | retNeedMore | feed => exact absurd h (guarded_ne_refused _ _ _ r)
    | take =>
      cases hevt : s.evt with
      | none => simp [exec_take_of_none hevt] at h
      | some q => simp [exec_take_of_some hevt] at h
    | reset => cases h
    | decode => exact execDecode_refused h

theorem frmOk_advance (s : State) : frmOk (advance s) = frmOk s := by
  obtain ⟨sched, tick, hadv⟩ := advance_eq s
  rw [hadv]
  rfl

theorem step_refused {s : State} {r : Refusal} (h : step s = .refused r) : r = .brokenFrame ∧ frmOk s = false := by
  rw [← frmOk_advance]
  cases hfetch : fetch (nextAgent s) (advance s) with
  | run i u =>
    rw [step_of_run hfetch] at h
    obtain ⟨inp, rfl⟩ := fetch_eq_run hfetch
    obtain ⟨hr, f, hfrm, hbad⟩ := exec_refused h
    have hfrm : (advance s).frm = some f := hfrm
    exact ⟨hr, by simp [frmOk, hfrm, hbad]⟩
  | nothing => simp [step_of_nothing hfetch] at h
  | broken =>
    simp only [step, hfetch] at h
    cases h
    exact ⟨rfl, frmOk_of_fetch_broken hfetch⟩

theorem exists_step_of_frmOk {s : State} (hs : frmOk s = true) : ∃ t, step s = .next t := by
  cases h : step s with
  | next t => exact ⟨t, rfl⟩
  | fault r => cases r
  | refused r =>
    obtain ⟨-, hbad⟩ := step_refused h
    simp [hs] at hbad

/-- Settles O59: there are no faults, and a refusal says that (I2) is broken. -/
theorem stepAlwaysAnswers : Obligations.StepAlwaysAnswers :=
  ⟨fun _ => exists_step_of_frmOk, fun _ _ => step_refused⟩

end Sys2Proof.Machine

/-! ## Coming to rest (70_reset_and_hazards.md R178, R184; log 18) -/

namespace Sys2Proof.Machine

open Safety

section WorkLeft

variable {s t : State} {i : Instr}

/-- Bytes removed outweigh a call that opens and a frame that waits; a step that removes none ends a call. -/
theorem SyncMove.workLeft_lt (h : SyncMove s i t) : workLeft t < workLeft s := by
  have hlen := h.buf_length_eq
  cases h with
  | clear hg =>
    obtain ⟨hscan | hlong, -⟩ := (canClear_iff s).mp hg
    · simp [workLeft, callOpen, hscan]
    · simp [workLeft, callOpen]; omega
  | trim k hg =>
    obtain ⟨-, hk, -⟩ := (canTrim_iff s k).mp hg
    simp only [bytesRemoved] at hlen
    simp [workLeft, callOpen] at hlen ⊢; omega
  | drop1 l hg =>
    simp only [bytesRemoved] at hlen
    simp [workLeft, callOpen] at hlen ⊢; omega
  | extract l hg =>
    obtain ⟨-, -, -, -, -, hfrm⟩ := (canExtract_iff s l).mp hg
    simp only [bytesRemoved, totalLength] at hlen
    simp [workLeft, callOpen, hfrm, totalLength] at hlen ⊢; omega
  | retNeedMore hg =>
    obtain ⟨hscan, -⟩ := (canRetNeedMore_iff s).mp hg
    simp [workLeft, callOpen, hscan]

/-- A turn with its guard, RESET apart, runs an instruction that lowers the work left and leaves the schedule alone. -/
theorem fetch_of_enabled {a : Agent} (ha : a ≠ .host) (hen : enabled a s = true) (hs : frmOk s = true) :
    ∃ i u, fetch a s = .run i u ∧ ∀ t, exec i u = .next t → workLeft t < workLeft s ∧ t.sched = s.sched := by
  cases a with
  | src =>
    obtain ⟨hinp, hready⟩ : s.inp ≠ [] ∧ inReady s = true := by simpa [enabled] using hen
    obtain ⟨b, rest, hinp⟩ := List.exists_cons_of_ne_nil hinp
    refine ⟨_, _, fetch_src hinp hready, fun t ht => ?_⟩
    rw [exec_feed_of_inReady (s := { s with inp := rest }) hready] at ht
    cases ht
    exact ⟨by simp [workLeft, hinp]; omega, rfl⟩
  | sync =>
    obtain ⟨i, hchoice⟩ := (enabled_sync_iff s).mp hen
    refine ⟨i, s, fetch_sync hchoice, fun t ht => ?_⟩
    have hmove := syncMove_of_exec hchoice ht
    refine ⟨hmove.workLeft_lt, ?_⟩
    cases hmove with
    | clear | trim | drop1 | extract | retNeedMore => rfl
  | dec =>
    obtain ⟨⟨f, hfrm⟩, hevt⟩ := (enabled_dec_iff s).mp hen
    obtain ⟨i, e, hi, he, -⟩ := exists_decode_of_frameOk s.cfg ((frmOk_iff s).mp hs f hfrm)
    refine ⟨i, s, fetch_dec hfrm hevt hi, fun t ht => ?_⟩
    rw [exec_row_delivers hfrm hevt hi he] at ht
    cases ht
    exact ⟨by simp [workLeft, hfrm, hevt], rfl⟩
  | sink =>
    obtain ⟨r, hevt⟩ := Option.isSome_iff_exists.mp hen
    refine ⟨_, s, fetch_sink (by simp [hevt]), fun t ht => ?_⟩
    rw [exec_take_of_some hevt] at ht
    cases ht
    exact ⟨by simp [workLeft, hevt], rfl⟩
  | host => exact absurd rfl ha

end WorkLeft

/-- While the block has a step, a step without a schedule lowers the work left. -/
theorem exists_step_workLeft_lt {s : State} (hsched : s.sched = []) (hs : frmOk s = true)
    (hblock : enabled .sync s = true ∨ enabled .dec s = true) :
    ∃ t, step s = .next t ∧ t.sched = [] ∧ frmOk t = true ∧ workLeft t < workLeft s := by
  obtain ⟨t, ht⟩ := exists_step_of_frmOk hs
  have htick (a : Agent) : enabled a { s with tick := s.tick + 1 } = enabled a s := by
    cases a with
    | src | sync | dec | sink | host => rfl
  obtain ⟨i, u, hfetch, hlower⟩ := fetch_of_enabled (s := { s with tick := s.tick + 1 }) (nextAgent_ne_host hsched)
    ((htick _).trans (enabled_nextAgent hsched hblock)) hs
  rw [← advance_of_no_sched hsched] at hfetch
  obtain ⟨hless, hsame⟩ := hlower t ((step_of_run hfetch).symm.trans ht)
  have hok : frmOk t = true :=
    step_keeps (P := fun s => frmOk s = true) (fun _ _ _ _ h => h) (fun _ _ _ hs heff => heff.keeps_frmOk hs) hs ht
  exact ⟨t, ht, hsame.trans hsched, hok, hless⟩

theorem run_succ_of_step {s t : State} (h : step s = .next t) (n : Nat) :
    Host.Core.run core (n + 1) s = Host.Core.run core n t := by
  simp only [Host.Core.run, core, h]

/-- Settles O58: by induction on the work left. -/
theorem blockSettlesByItself : Obligations.BlockSettlesByItself := by
  intro s
  induction hwork : workLeft s using Nat.strong_induction_on generalizing s with
  | _ w ih =>
    intro hsched hs
    by_cases hblock : enabled .sync s = true ∨ enabled .dec s = true
    · obtain ⟨t, hstep, hsched', hs', hless⟩ := exists_step_workLeft_lt hsched hs hblock
      obtain ⟨n, hn, u, hrun, hrest⟩ := ih _ (hwork ▸ hless) t rfl hsched' hs'
      exact ⟨n + 1, by omega, u, (run_succ_of_step hstep n).trans hrun, hrest⟩
    · obtain ⟨hsync, hdec⟩ := not_or.mp hblock
      exact ⟨0, Nat.zero_le w, s, rfl, Bool.eq_false_of_not_eq_true hsync, Bool.eq_false_of_not_eq_true hdec⟩

end Sys2Proof.Machine

/-! ## The Flight Mode text (43_payload_decode.md R128) -/

namespace Sys2Proof.Machine

theorem dropTrailing_eq_take (n : Nat) (p : List Byte) : dropTrailing n p = p.take (p.length - n) := by
  rw [dropTrailing, show p.length - min n p.length = p.length - n by omega]

/-- The cut text holds no `0x00`, and ends before the first one. -/
theorem cutAtNul_spec (p : List Byte) :
    (∀ b ∈ cutAtNul p, b ≠ 0x00#8) ∧ ∃ tail, p = cutAtNul p ++ tail ∧ (tail = [] ∨ tail[0]? = some 0x00#8) := by
  induction p with
  | nil => exact ⟨nofun, [], rfl, .inl rfl⟩
  | cons b bs ih =>
    obtain ⟨hno, tail, htail, hend⟩ := ih
    rw [cutAtNul]
    split
    · next hb => exact ⟨nofun, b :: bs, rfl, .inr (congrArg some hb)⟩
    · next hb => exact ⟨List.forall_mem_cons.mpr ⟨hb, hno⟩, tail, congrArg (b :: ·) htail, hend⟩

theorem isControl_iff (c : Byte) : isControl c = true ↔ c.toNat < 0x20 ∨ c = 0x7F#8 := by
  simp [isControl]

theorem stripControl_eq_nil_iff (p : List Byte) : stripControl p = [] ↔ ∀ c ∈ p, isControl c = true := by
  cases p with
  | nil => simp [stripControl]
  | cons b bs =>
    rw [stripControl, ← List.all_eq_true]
    split <;> simp_all

/-- What the strip takes off is control bytes. -/
theorem exists_controls_of_stripControl (p : List Byte) :
    ∃ tail, p = stripControl p ++ tail ∧ ∀ c ∈ tail, isControl c = true := by
  induction p with
  | nil => exact ⟨[], rfl, nofun⟩
  | cons b bs ih =>
    obtain ⟨tail, htail, hcontrols⟩ := ih
    rw [stripControl]
    split
    · next hall => exact ⟨b :: bs, rfl, List.all_eq_true.mp hall⟩
    · exact ⟨tail, congrArg (b :: ·) htail, hcontrols⟩

/-- What the strip leaves ends in no control byte: an earlier one stays only before a byte that is none. -/
theorem not_isControl_of_getLast?_stripControl {p : List Byte} {c : Byte} (h : (stripControl p).getLast? = some c) :
    isControl c = false := by
  induction p with
  | nil => cases h
  | cons b bs ih =>
    rw [stripControl] at h
    split at h
    · cases h
    · next hall =>
      cases hbs : stripControl bs with
      | cons d ds =>
        rw [hbs, List.getLast?_cons_cons, ← hbs] at h
        exact ih h
      | nil =>
        rw [hbs] at h
        cases h
        rw [List.all_eq_true, List.forall_mem_cons] at hall
        exact Bool.eq_false_of_not_eq_true fun hb => hall ⟨hb, (stripControl_eq_nil_iff bs).mp hbs⟩

theorem stripControl_spec (p : List Byte) :
    (∃ tail, p = stripControl p ++ tail ∧ ∀ c ∈ tail, c.toNat < 0x20 ∨ c = 0x7F#8) ∧
      ∀ c, (stripControl p).getLast? = some c → 0x20 ≤ c.toNat ∧ c ≠ 0x7F#8 := by
  refine ⟨?_, fun c hc => ?_⟩
  · simpa only [isControl_iff] using exists_controls_of_stripControl p
  · have hno := mt (isControl_iff c).mpr (by simp [not_isControl_of_getLast?_stripControl hc])
    obtain ⟨hlow, hdel⟩ := not_or.mp hno
    exact ⟨Nat.not_lt.mp hlow, hdel⟩

/-- The text before the last trim of R128. -/
def textBeforeStrip (cfg : Config) (p : List Byte) : List Byte :=
  if cfg.fmNulCut then cutAtNul (dropTrailing cfg.fmFixedTrim.val p) else dropTrailing cfg.fmFixedTrim.val p

theorem flightModeText_eq (cfg : Config) (p : List Byte) :
    flightModeText cfg p =
      if cfg.fmCtrlStrip then stripControl (textBeforeStrip cfg p) else textBeforeStrip cfg p :=
  rfl

/-- Settles O43: the three trims one after another, each with its own lemma. -/
theorem flightModeTextTrims : Obligations.FlightModeTextTrims := by
  intro cfg p
  refine ⟨⟨_, List.prefix_iff_eq_take.mp (flightModeText_prefix cfg p)⟩, dropTrailing cfg.fmFixedTrim.val p,
    textBeforeStrip cfg p, dropTrailing_eq_take _ p, fun hcut => ?whole, fun hcut => ?cut, fun hstrip => ?keep,
    fun hstrip => ?strip⟩
  case whole => rw [textBeforeStrip, if_neg (by simp [hcut])]
  case cut =>
    rw [textBeforeStrip, if_pos hcut]
    exact cutAtNul_spec _
  case keep => rw [flightModeText_eq, if_neg (by simp [hstrip])]
  case strip =>
    rw [flightModeText_eq, if_pos hstrip]
    exact stripControl_spec _

end Sys2Proof.Machine

/-! ## The event port (44_event_output.md R141, R144; log 19) -/

namespace Sys2Proof.Machine

open Safety

/-- The fields that R141 defines for every kind are those of `portCommon`. -/
theorem portOf_common (r : EvtReg) :
    (portOf r).kind = eventKind r.ev ∧ (portOf r).len = BitVec.ofNat 7 r.frame.length ∧ (portOf r).frame = r.frame ∧
      (portOf r).typ = frameType r.frame ∧ (portOf r).plen = BitVec.ofNat 6 (r.frame.length - 4) := by
  obtain ⟨ev, f⟩ := r
  cases ev with
  | gps | battery | linkStatistics | attitude | flightMode | unknownPacket | checksumMismatch | malformedPayload =>
    exact ⟨rfl, rfl, rfl, rfl, rfl⟩

/-- A signed field carries its pattern on the port. -/
theorem ofInt_sext {w : Nat} (hw : 0 < w) (v : BitVec w) : BitVec.ofInt w (sext v) = v := by
  rw [sext_eq_toInt hw, BitVec.ofInt_toInt]

section PortFields

variable {f : List Byte} (hok : frameOk f = true)
include hok

theorem port_len_toNat : (BitVec.ofNat 7 f.length).toNat = f.length := by
  obtain ⟨-, hmax, -, -⟩ := (frameOk_iff f).mp hok
  rw [BitVec.toNat_ofNat, Nat.mod_eq_of_lt (by omega)]

theorem port_plen_toNat : (BitVec.ofNat 6 (f.length - 4)).toNat = f.length - 4 := by
  obtain ⟨-, hmax, -, -⟩ := (frameOk_iff f).mp hok
  rw [BitVec.toNat_ofNat, Nat.mod_eq_of_lt (by omega)]

/-- The first bytes of the payload stand on the port behind the header. -/
theorem slice_eq_of_payload {text : List Byte} (h : text <+: framePayload f) :
    slice f 3 (3 + text.length) = text := by
  have hle := h.length_le
  rw [framePayload_length hok] at hle
  rw [slice, Nat.add_sub_cancel_left]
  conv_rhs => rw [List.prefix_iff_eq_take.mp h, framePayload, slice, List.take_take, min_eq_left (by omega)]

/-- A text within the payload has a length that 6 bits carry. -/
theorem port_tlen_toNat {text : List Byte} (h : text <+: framePayload f) :
    (BitVec.ofNat 6 text.length).toNat = text.length := by
  have hle := h.length_le.trans (framePayload_length_le hok)
  rw [BitVec.toNat_ofNat, Nat.mod_eq_of_lt (by omega)]

/-- The event of the frame is read back from the port, kind by kind. -/
theorem portEvent_portOf {cfg : Config} {e : Event} (he : decodeEvent cfg f = some e) :
    portEvent (portOf { ev := e, frame := f }) = some e := by
  obtain ⟨-, rfl | rfl⟩ := decodeEvent_eq_some he
  · have hall : slice f 0 f.length = f := by simp [slice]
    simp [portEvent, portOf, portCommon, eventKind, port_len_toNat hok, hall]
  · generalize hp : framePayload f = p
    rcases bodyEvent_cases cfg (frameType f) p with
      hmalformed | hgps | hbattery | hlink | hattitude | hflightMode | hunknown
    · rw [hmalformed]
      rfl
    · rw [hgps]
      simp [portEvent, portOf, portCommon, eventKind, decodeGps, ofInt_sext]
    · rw [hbattery]
      simp [portEvent, portOf, portCommon, eventKind, decodeBattery]
    · rw [hlink]
      simp [portEvent, portOf, portCommon, eventKind, decodeLink, ofInt_sext]
    · rw [hattitude]
      simp [portEvent, portOf, portCommon, eventKind, decodeAttitude, ofInt_sext]
    · rw [hflightMode]
      have htext : flightModeText cfg p <+: framePayload f := hp ▸ flightModeText_prefix cfg p
      simp [portEvent, portOf, portCommon, eventKind, decodeFlightMode, -BitVec.toNat_ofNat, port_tlen_toNat hok htext,
        slice_eq_of_payload hok htext]
    · rw [hunknown]
      have hpayload := slice_eq_of_payload hok (List.prefix_refl (framePayload f))
      rw [framePayload_length hok] at hpayload
      simp [portEvent, portOf, portCommon, eventKind, -BitVec.toNat_ofNat, port_plen_toNat hok, hpayload, hp]

end PortFields

/-- Settles O45: EVT holds the decode of its frame, so the fields of the port say which it is. -/
theorem portCarriesTheEvent : Obligations.PortCarriesTheEvent := by
  refine ⟨fun s r hs hevt => ?_, fun s rst h => ?_⟩
  · have he := (evtOk_iff s).mp hs r hevt
    obtain ⟨hok, -⟩ := decodeEvent_eq_some he
    obtain ⟨hkind, hlen, hframe, htyp, hplen⟩ := portOf_common r
    exact ⟨portOf r, by simp [eventPort, hevt], portEvent_portOf hok he, hkind, hframe,
      by rw [hlen, port_len_toNat hok], htyp, by rw [hplen, port_plen_toNat hok]⟩
  · obtain hevt | rfl := h
    · simp [eventPort, hevt]
    · rfl

end Sys2Proof.Machine
